-- ==== Sys2Proof/Word.lean ====
section
/-!
DEFINITION. The value types of the od-dacadc block: bytes, fixed-width codes, voltages, channel numbers and
the identities of the lines it drives or reads (00_scope.md R8, R10, R12, R13).
-/

namespace Sys2Proof

/-- A byte of a frame, 0..255 (R12). -/
abbrev Byte := BitVec 8

/-- A 20-bit DAC code, held unsigned (43, opening; `DAC_BITS` of R8). -/
abbrev DacCode := BitVec 20

/-- A 24-bit ADC code, unsigned (44 R200; `ADC_BITS` of R8). -/
abbrev AdcCode := BitVec 24

/-- A voltage: an exact rational number of volts (R13). -/
abbrev Volts := Rat

/-- A DAC channel index, 0..3 (`u2` of 30 R101). -/
abbrev DacChan := Fin 4

/-- An ADC channel index, 0..15 (`u4` of 30 R101). -/
abbrev AdcChan := Fin 16

/-- A list of exactly three bytes (`bytes3` of 30 R101), first byte first. -/
structure Bytes3 where
  b0 : Byte
  b1 : Byte
  b2 : Byte
  deriving DecidableEq, Repr, Inhabited

/-- The bytes in the order they are transferred (R12: byte 0 first). -/
def Bytes3.toList (f : Bytes3) : List Byte := [f.b0, f.b1, f.b2]

/-- A logic level of a pin (R14: `lvl` is low or high). -/
inductive Level where
  | low
  | high
  deriving DecidableEq, Repr, Inhabited

/-- A select line, named by the parameter of R10 that holds its id, so that the distinctness R10 asks for holds
by construction (log 5). -/
inductive Line where
  /-- `SYNC_LINE[c]`. -/
  | sync (c : DacChan)
  /-- `ADC_SELECT`. -/
  | adcSelect
  deriving DecidableEq, Repr

/-- A pin, named by the parameter of R10 that holds its id (log 5). -/
inductive Pin where
  /-- `LATCH_PIN`. -/
  | latch
  /-- `DRDY_PIN`. -/
  | drdy
  deriving DecidableEq, Repr

/-- The direction of a pin, the `mode` of `SetDirection` (R14, 70 R292). -/
inductive PinMode where
  | input
  | output
  deriving DecidableEq, Repr

/-- The four DAC channels in the ascending order of every loop `for c in 0..3` (46 R232). -/
def allDacChans : List DacChan := [0, 1, 2, 3]

/-- The sixteen ADC channels in the ascending order of every loop `for i in 0..15` (44 R197). -/
def allAdcChans : List AdcChan := [0, 1, 2, 3, 4, 5, 6, 7, 8, 9, 10, 11, 12, 13, 14, 15]

end Sys2Proof
end

