-- ==== Sys2Proof/Config.lean ====
section
/-!
DEFINITION. The implementation parameters of 00_scope.md R8 to R11: the fixed constants, the values the spec
fixes, the OPEN parameters and those with a default; and the free values of the model.

The parameters are gathered in `Config`, which State carries as a field no step changes, so that every
statement over all states is a statement over all parameters (log 4). The OPEN values of R10 that the machine
after reset has are opaque constants: no proof can see a number there.
-/

namespace Sys2Proof

/-! ### Fixed constants (R8) and values the spec fixes (R9) -/

/-- `FRAME_CAPACITY`: the maximum number of bytes in a frame (R8). -/
def Config.frameCapacity : Nat := 64

/-- `FULL_SCALE`: the DAC span is plus or minus 10 V (R8). -/
def Config.fullScale : Volts := 10

/-- `DAC_POS_DIV` = 2^19 - 1 (R8). -/
def Config.dacPosDiv : Nat := 524287

/-- `DAC_NEG_DIV` = 2^19 (R8). -/
def Config.dacNegDiv : Nat := 524288

/-- `DAC_BIAS` = 2^20 (R8). -/
def Config.dacBias : Nat := 1048576

/-- `ADC_MID` = 2^23, the ADC mapping denominator (R8). -/
def Config.adcMid : Nat := 8388608

/-- `ADC_SPAN` = 25 V, the ADC mapping scale (R8). -/
def Config.adcSpan : Volts := 25

/-- `ADC_CHCFG_BASE`: the register address of channel 0 (R8). -/
def Config.adcChcfgBase : Nat := 0x10

/-- `NUM_SETUPS`: ADC setups 0..7 (R8). -/
def Config.numSetups : Nat := 8

/-- `VINCOM`: the `inputNegative` value of the common-mode reference (R8). -/
def Config.vincom : Nat := 16

/-- `DISABLE_ALL_LEN` = 16 x 3 bytes (R8). -/
def Config.disableAllLen : Nat := 48

/-- `POISON`: every byte of an error frame (R9, D6). -/
def Config.poison : Byte := 0xFF

/-- `OVR_SENTINEL`: the value returned beside `VoltageOverrange` (R9, D5). -/
def Config.ovrSentinel : Nat := 999

/-! ### Parameters (R10, R11) -/

/-- How `round` treats halves (R11, 43 R171). -/
inductive Rounding where
  | halfAwayFromZero
  | halfToEven
  | towardZero
  deriving DecidableEq, Repr, Inhabited

/-- The parameters of R10 and R11. The select lines and pins of R10 are the types `Line` and `Pin`. -/
structure Config where
  /-- Bits 7:4 of `DAC_WRITE_CTRL`; its bits 3:0 are 0 by R10's constraint (log 6). -/
  dacWriteNibble : BitVec 4
  /-- `DAC_READ_REQ`. -/
  dacReadReq : Bytes3
  /-- `DAC_INIT_FRAME`. -/
  dacInitFrame : Bytes3
  /-- `ADC_MODE_FRAME`. -/
  adcModeFrame : Bytes3
  /-- `ADC_DATA_READ_CMD`. -/
  adcDataReadCmd : Byte
  /-- `GE[c]`: carried, with no effect on any rule. -/
  ge : Vector Rat 4
  /-- `OS[c]`: carried, with no effect on any rule. -/
  os : Vector Rat 4
  /-- `ROUNDING`. -/
  rounding : Rounding
  /-- `DRDY_TIMEOUT_POLLS`: none, or how many reads of `DRDY_PIN` one wait may make (at least 1). -/
  drdyTimeoutPolls : Option Nat
  /-- `CANCEL_SUPPORTED`. -/
  cancelSupported : Bool
  deriving DecidableEq, Repr, Inhabited

/-- `DAC_WRITE_CTRL`, the control bits ORed into byte 0 of a DAC write frame (R10). -/
def Config.dacWriteCtrl (cfg : Config) : Byte := cfg.dacWriteNibble ++ (0 : BitVec 4)

/-- R11's constraint: a timeout is at least one poll. -/
def Config.TimeoutOk (cfg : Config) : Bool :=
  match cfg.drdyTimeoutPolls with
  | none => true
  | some n => 1 ≤ n

/-! ### The OPEN values of the machine after reset (R10, D7, D36) -/

opaque Config.openDacWriteNibble : BitVec 4
opaque Config.openDacReadReq : Bytes3
opaque Config.openDacInitFrame : Bytes3
opaque Config.openAdcModeFrame : Bytes3
opaque Config.openAdcDataReadCmd : Byte
opaque Config.openGe : DacChan → Rat
opaque Config.openOs : DacChan → Rat

/-- The parameters of the machine after reset: the OPEN ones unknown, the others at R11's defaults. -/
def Config.board : Config where
  dacWriteNibble := Config.openDacWriteNibble
  dacReadReq := Config.openDacReadReq
  dacInitFrame := Config.openDacInitFrame
  adcModeFrame := Config.openAdcModeFrame
  adcDataReadCmd := Config.openAdcDataReadCmd
  ge := #v[Config.openGe 0, Config.openGe 1, Config.openGe 2, Config.openGe 3]
  os := #v[Config.openOs 0, Config.openOs 1, Config.openOs 2, Config.openOs 3]
  rounding := .halfAwayFromZero
  drdyTimeoutPolls := none
  cancelSupported := true

/-! ### Free values -/

/-- A received byte for which no answer is queued (20 R66: any byte). -/
opaque Config.freeByte : Nat → Byte

/-- A level read on `DRDY_PIN` for which no answer is queued (20 R66: either level). -/
opaque Config.freeLevel : Nat → Level

/-- `RAMP_PASSES` after a pass is added to 2^32 - 1: the sum does not fit the 32-bit field of 10 R31 and the
spec states no result (log 9). -/
opaque Config.freePasses : Nat → BitVec 32

/-- `dacReg[c]` of the reference DAC at power-up: unknown (20 R80). -/
opaque Config.powerUpDacReg : DacChan → DacCode

/-- `out[c]` of the reference DAC at power-up: unknown (20 R80). -/
opaque Config.powerUpOut : DacChan → DacCode

/-- The ADC's channel registers at power-up: not given (70 R291, R294). -/
opaque Config.powerUpAdcReg : AdcChan → BitVec 16

end Sys2Proof
end

