-- ==== Sys2Proof/Syntax.lean ====
section
/-!
DEFINITION. The instructions: one constructor per row of opcode_table.json, the 25 host operations of
30_encoding.md R100 with the operand shapes of R101 and the 9 wire frames of R90 to R98; and the descriptor in
which the host names an operation (R99).
-/

namespace Sys2Proof

/-- The operand record of `RAMP_PLAN`, `RAMP_SIMPLE` and `RAMP_BUFFERED` (30 R101): the ramp plan of 10 R29. -/
structure Plan where
  activeDacMask : BitVec 4
  vInitial : Vector Volts 4
  vFinal : Vector Volts 4
  stepCount : BitVec 32
  /-- In milliseconds (D27). -/
  stepDelay : BitVec 32
  activeAdcMask : BitVec 16
  deriving DecidableEq, Repr

/-- The instructions. `s32` operands are 32-bit words read as signed (`BitVec.toInt`), `u32` operands 32-bit
words read as unsigned. The wire frames carry the fields their pattern leaves open; a DAC frame also names the
channel whose select line it is sent on, since the line is no part of the frame (30 R90). The types of a CHCFG
frame's inputs leave out the values R103 says are never written. -/
inductive Instr where
  | buildFrame (blockSize blockCount : BitVec 32) (data : List Byte)
  | adcCfgEncode (channel : AdcChan) (state setup inputPositive inputNegative : BitVec 32)
  | adcCfgDecode (frame : Bytes3)
  | adcDisableAllEncode
  | dacV2c (v : Volts)
  | dacC2v (code : DacCode)
  | dacWriteEncode (code : DacCode)
  | dacReadDecode (frame : Bytes3)
  | adcCodeDecode (frame : Bytes3)
  | adcConfigureChannel (channel : AdcChan) (state setup inputPositive inputNegative : BitVec 32)
  | adcDisableAll
  | adcSelectMode
  | adcWaitDrdy
  | adcReadChannel (channel : AdcChan)
  | adcFullReading
  | dacInitAll
  | dacSetVoltage (channel : DacChan) (v : Volts) (updateOutputs : Bool)
  | dacReadVoltage (channel : DacChan)
  | dacReadRegister (channel : DacChan)
  | dacUpdateOutputs
  | rampPlan (plan : Plan)
  | rampPrime (activeDacMask : BitVec 4) (vInitial : Vector Volts 4)
  | rampSimple (plan : Plan)
  | rampBuffered (plan : Plan)
  | readStatus
  | wireAdcChcfg (channel : AdcChan) (enabled : Bool) (setup : BitVec 3) (inputPositive : Fin 16)
      (inputNegative : Fin 17)
  | wireAdcDisableAll
  | wireAdcMode
  | wireAdcDataRead
  | wireDacWrite (channel : DacChan) (code : DacCode)
  | wireDacReadRequest (channel : DacChan)
  | wireDacReadNull (channel : DacChan)
  | wireDacInit (channel : DacChan)
  | wirePoison
  deriving DecidableEq, Repr

/-- Is the instruction a host operation (30 R100), as opposed to a wire frame (30 R90)? -/
def Instr.isOperation : Instr → Bool
  | .wireAdcChcfg .. | .wireAdcDisableAll | .wireAdcMode | .wireAdcDataRead | .wireDacWrite .. => false
  | .wireDacReadRequest _ | .wireDacReadNull _ | .wireDacInit _ | .wirePoison => false
  | .buildFrame .. | .adcCfgEncode .. | .adcCfgDecode _ | .adcDisableAllEncode | .dacV2c _ => true
  | .dacC2v _ | .dacWriteEncode _ | .dacReadDecode _ | .adcCodeDecode _ | .adcConfigureChannel .. => true
  | .adcDisableAll | .adcSelectMode | .adcWaitDrdy | .adcReadChannel _ | .adcFullReading => true
  | .dacInitAll | .dacSetVoltage .. | .dacReadVoltage _ | .dacReadRegister _ | .dacUpdateOutputs => true
  | .rampPlan _ | .rampPrime .. | .rampSimple _ | .rampBuffered _ | .readStatus => true

/-- The typed operand records: one constructor per row of 30 R101. -/
inductive Operands where
  | none
  | frameSpec (blockSize blockCount : BitVec 32) (data : List Byte)
  | channelConfig (channel : AdcChan) (state setup inputPositive inputNegative : BitVec 32)
  | bytes3 (frame : Bytes3)
  | volts (v : Volts)
  | code20 (code : DacCode)
  | adcChannel (channel : AdcChan)
  | setVoltage (channel : DacChan) (v : Volts) (updateOutputs : Bool)
  | dacChannel (channel : DacChan)
  | plan (plan : Plan)
  | prime (activeDacMask : BitVec 4) (vInitial : Vector Volts 4)
  deriving DecidableEq, Repr

/-- The shapes of the operand records (30 R101). -/
inductive Shape where
  | none
  | frameSpec
  | channelConfig
  | bytes3
  | volts
  | code20
  | adcChannel
  | setVoltage
  | dacChannel
  | plan
  | prime
  deriving DecidableEq, Repr

/-- The shape of an operand record. -/
def Operands.shape : Operands → Shape
  | .none => .none
  | .frameSpec .. => .frameSpec
  | .channelConfig .. => .channelConfig
  | .bytes3 _ => .bytes3
  | .volts _ => .volts
  | .code20 _ => .code20
  | .adcChannel _ => .adcChannel
  | .setVoltage .. => .setVoltage
  | .dacChannel _ => .dacChannel
  | .plan _ => .plan
  | .prime .. => .prime

/-- The shape 30 R101 fixes for an opcode of the map of R100; none for an opcode outside the map. -/
def opcodeShape (opcode : Byte) : Option Shape :=
  match opcode with
  | 0x01#8 => some .frameSpec
  | 0x02#8 | 0x10#8 => some .channelConfig
  | 0x03#8 | 0x08#8 | 0x09#8 => some .bytes3
  | 0x05#8 => some .volts
  | 0x06#8 | 0x07#8 => some .code20
  | 0x14#8 => some .adcChannel
  | 0x21#8 => some .setVoltage
  | 0x22#8 | 0x23#8 => some .dacChannel
  | 0x30#8 | 0x32#8 | 0x33#8 => some .plan
  | 0x31#8 => some .prime
  | 0x04#8 | 0x11#8 | 0x12#8 | 0x13#8 | 0x15#8 | 0x20#8 | 0x24#8 | 0x40#8 => some .none
  | _ => none

/-- 30 R99: has the operand record the opcode's shape? R101 gives an opcode outside the map no shape, so any record
may stand beside it (DESIGN CHOICE, log 12). -/
def Operands.fits (opcode : Byte) (operands : Operands) : Bool :=
  match opcodeShape opcode with
  | some shape => operands.shape = shape
  | .none => true

/-- The kind of a wire frame (30 R90 to R98): which of the frames it was sent as. -/
inductive FrameKind where
  | adcChcfg
  | adcDisableAll
  | adcMode
  | adcDataRead
  | dacWrite
  | dacReadRequest
  | dacReadNull
  | dacInit
  | poison
  deriving DecidableEq, Repr

/-- What can stand where the block takes its next instruction: an operation descriptor of 30 R99, whose operand
record has the opcode's shape (another one cannot be written down); or (in no run that 20 R77's host makes; log 13)
one wire frame: the kind it is sent as, since a frame's kind is never told from its bytes (R90), the select line that
carries it and its bytes. -/
inductive Descriptor where
  | op (opcode : Byte) (operands : Operands) (fits : operands.fits opcode = true)
  | frame (kind : FrameKind) (line : Line) (bytes : List Byte)
  deriving DecidableEq, Repr

end Sys2Proof
end

