-- ==== Sys2Proof/WellFormed.lean ====
section
/-!
DEFINITION. Which instructions can be written at the interface: the constraints the spec puts on operands beyond
their types (41_frame_codec.md R130). Everything else the types of 30_encoding.md R101 and R103 already exclude, and
an operand that a rule checks and reports with an error code (42 R151, 43 R170, 46 R230) is well formed here.
-/

namespace Sys2Proof

/-- R130: the sizes are at least 1 and the data has exactly `blockSize * blockCount` bytes, the product exact. -/
def BuildFrameOk (blockSize blockCount : BitVec 32) (data : List Byte) : Bool :=
  1 ≤ blockSize.toNat && 1 ≤ blockCount.toNat && data.length == blockSize.toNat * blockCount.toNat

/-- The instruction can be written at the interface. -/
def Instr.WellFormed : Instr → Bool
  | .buildFrame blockSize blockCount data => BuildFrameOk blockSize blockCount data
  | .wireAdcChcfg .. | .wireAdcDisableAll | .wireAdcMode | .wireAdcDataRead | .wireDacWrite .. => true
  | .wireDacReadRequest _ | .wireDacReadNull _ | .wireDacInit _ | .wirePoison => true
  | .adcCfgEncode .. | .adcCfgDecode _ | .adcDisableAllEncode | .dacV2c _ => true
  | .dacC2v _ | .dacWriteEncode _ | .dacReadDecode _ | .adcCodeDecode _ | .adcConfigureChannel .. => true
  | .adcDisableAll | .adcSelectMode | .adcWaitDrdy | .adcReadChannel _ | .adcFullReading => true
  | .dacInitAll | .dacSetVoltage .. | .dacReadVoltage _ | .dacReadRegister _ | .dacUpdateOutputs => true
  | .rampPlan _ | .rampPrime .. | .rampSimple _ | .rampBuffered _ | .readStatus => true

end Sys2Proof
end

