-- ==== Sys2Proof/Decode.lean ====
section
/-!
DEFINITION. The decoder of operation descriptors (30_encoding.md R99 to R101, R105) and of wire frames
(R90 to R98), total and rejecting by name; then the encoder, written from the same tables; then the reading of a
word of opcode_table.json.
-/

namespace Sys2Proof

/-- What the decoder answers. -/
inductive Decoded where
  /-- The instruction. -/
  | instr (i : Instr)
  /-- An opcode outside the map of R100: an operation that completes with `IllegalOperation` (R105). -/
  | illegalOpcode (opcode : Byte)
  /-- Bytes that are no frame of the kind they are sent as (R90 to R98). -/
  | unknownFrame
  deriving DecidableEq, Repr

/-- The decoded instruction, where there is one. -/
def Decoded.instr? : Decoded → Option Instr
  | .instr i => some i
  | .illegalOpcode _ | .unknownFrame => none

/-! ### Operation descriptors -/

/-- The opcode map of R100 with the operand shapes of R101. None is an opcode outside the map: an operand record of
another shape stands in no descriptor (R99). -/
def decodeOp (opcode : Byte) (operands : Operands) : Option Instr :=
  match opcode with
  | 0x01#8 => match operands with
    | .frameSpec blockSize blockCount data => some (.buildFrame blockSize blockCount data)
    | _ => none
  | 0x02#8 => match operands with
    | .channelConfig channel state setup p n => some (.adcCfgEncode channel state setup p n)
    | _ => none
  | 0x03#8 => match operands with
    | .bytes3 frame => some (.adcCfgDecode frame)
    | _ => none
  | 0x04#8 => match operands with
    | .none => some .adcDisableAllEncode
    | _ => none
  | 0x05#8 => match operands with
    | .volts v => some (.dacV2c v)
    | _ => none
  | 0x06#8 => match operands with
    | .code20 code => some (.dacC2v code)
    | _ => none
  | 0x07#8 => match operands with
    | .code20 code => some (.dacWriteEncode code)
    | _ => none
  | 0x08#8 => match operands with
    | .bytes3 frame => some (.dacReadDecode frame)
    | _ => none
  | 0x09#8 => match operands with
    | .bytes3 frame => some (.adcCodeDecode frame)
    | _ => none
  | 0x10#8 => match operands with
    | .channelConfig channel state setup p n => some (.adcConfigureChannel channel state setup p n)
    | _ => none
  | 0x11#8 => match operands with
    | .none => some .adcDisableAll
    | _ => none
  | 0x12#8 => match operands with
    | .none => some .adcSelectMode
    | _ => none
  | 0x13#8 => match operands with
    | .none => some .adcWaitDrdy
    | _ => none
  | 0x14#8 => match operands with
    | .adcChannel channel => some (.adcReadChannel channel)
    | _ => none
  | 0x15#8 => match operands with
    | .none => some .adcFullReading
    | _ => none
  | 0x20#8 => match operands with
    | .none => some .dacInitAll
    | _ => none
  | 0x21#8 => match operands with
    | .setVoltage channel v updateOutputs => some (.dacSetVoltage channel v updateOutputs)
    | _ => none
  | 0x22#8 => match operands with
    | .dacChannel channel => some (.dacReadVoltage channel)
    | _ => none
  | 0x23#8 => match operands with
    | .dacChannel channel => some (.dacReadRegister channel)
    | _ => none
  | 0x24#8 => match operands with
    | .none => some .dacUpdateOutputs
    | _ => none
  | 0x30#8 => match operands with
    | .plan plan => some (.rampPlan plan)
    | _ => none
  | 0x31#8 => match operands with
    | .prime activeDacMask vInitial => some (.rampPrime activeDacMask vInitial)
    | _ => none
  | 0x32#8 => match operands with
    | .plan plan => some (.rampSimple plan)
    | _ => none
  | 0x33#8 => match operands with
    | .plan plan => some (.rampBuffered plan)
    | _ => none
  | 0x40#8 => match operands with
    | .none => some .readStatus
    | _ => none
  | _ => none

/-! ### Wire frames -/

/-- The error frame of R98. -/
def poisonFrame : Bytes3 := ⟨Config.poison, Config.poison, Config.poison⟩

/-- The null frame of R96. -/
def nullFrame : Bytes3 := ⟨0, 0, 0⟩

/-- The bits a CHCFG frame fixes (R91): byte 0 is 0001 cccc and payload bits 11:10 are 00. -/
def isChcfg (f : Bytes3) : Bool :=
  f.b0.extractLsb' 4 4 == 0b0001#4 && f.b1.extractLsb' 2 2 == 0b00#2

/-- The CHCFG frame `0001 cccc e sss 00 ppppp nnnnn` of R91; one with `p` above 15 or `n` above 16 is never written
(R103) and is no CHCFG frame. -/
def decodeChcfg (f : Bytes3) : Decoded :=
  let payload : BitVec 16 := f.b1 ++ f.b2
  let p := (payload.extractLsb' 5 5).toNat
  let n := (payload.extractLsb' 0 5).toNat
  if h : isChcfg f = true ∧ p < 16 ∧ n < 17 then
    .instr (.wireAdcChcfg (f.b0.extractLsb' 0 4).toFin (payload.getLsbD 15) (payload.extractLsb' 12 3)
      ⟨p, h.2.1⟩ ⟨n, h.2.2⟩)
  else .unknownFrame

/-- The 20-bit code of a DAC write frame `WWWW dddd dddddddd dddddddd` (R95). -/
def dacCodeOfBytes (f : Bytes3) : DacCode := f.b0.extractLsb' 0 4 ++ f.b1 ++ f.b2

/-- The disable-all frame of R92: `[0x10 + i, 0x00, 0x01]` for i = 0..15. -/
def disableAllPattern : List Byte :=
  allAdcChans.flatMap fun i => [BitVec.ofNat 8 (0x10 + i.val), 0x00, 0x01]

/-- The data-read frame of R94. -/
def dataReadPattern (cfg : Config) : List Byte := [cfg.adcDataReadCmd, 0x00, 0x00, 0x00]

/-- The frame is this one, or no frame of its kind. -/
def decodeConstant (pattern : List Byte) (i : Instr) (bytes : List Byte) : Decoded :=
  if bytes = pattern then .instr i else .unknownFrame

/-- A frame sent as this kind on this line. R90: the kind is told from what sent the frame, the receiving chip from the
line; the bytes give only the fields that the kind's pattern leaves open. -/
def decodeFrame (cfg : Config) (kind : FrameKind) (line : Line) (bytes : List Byte) : Decoded :=
  match kind, line with
  | .adcChcfg, .adcSelect =>
    match bytes with
    | [b0, b1, b2] => decodeChcfg ⟨b0, b1, b2⟩
    | _ => .unknownFrame
  | .adcDisableAll, .adcSelect => decodeConstant disableAllPattern .wireAdcDisableAll bytes
  | .adcMode, .adcSelect => decodeConstant cfg.adcModeFrame.toList .wireAdcMode bytes
  | .adcDataRead, .adcSelect => decodeConstant (dataReadPattern cfg) .wireAdcDataRead bytes
  | .poison, .adcSelect => decodeConstant poisonFrame.toList .wirePoison bytes
  | .dacWrite, .sync c =>
    match bytes with
    | [b0, b1, b2] =>
      if b0.extractLsb' 4 4 = cfg.dacWriteNibble then .instr (.wireDacWrite c (dacCodeOfBytes ⟨b0, b1, b2⟩))
      else .unknownFrame
    | _ => .unknownFrame
  | .dacReadRequest, .sync c => decodeConstant cfg.dacReadReq.toList (.wireDacReadRequest c) bytes
  | .dacReadNull, .sync c => decodeConstant nullFrame.toList (.wireDacReadNull c) bytes
  | .dacInit, .sync c => decodeConstant cfg.dacInitFrame.toList (.wireDacInit c) bytes
  | .adcChcfg, .sync _ | .adcDisableAll, .sync _ | .adcMode, .sync _ | .adcDataRead, .sync _ => .unknownFrame
  | .poison, .sync _ | .dacWrite, .adcSelect | .dacReadRequest, .adcSelect => .unknownFrame
  | .dacReadNull, .adcSelect | .dacInit, .adcSelect => .unknownFrame

/-- The decoder: total on every opcode with a record that fits, and on every kind, line and byte list. -/
def decode (cfg : Config) (d : Descriptor) : Decoded :=
  match d with
  | .op opcode operands _ =>
    match decodeOp opcode operands with
    | some i => .instr i
    | none => .illegalOpcode opcode
  | .frame kind line bytes => decodeFrame cfg kind line bytes

/-- The parameter frames can be told apart from each other and from the fixed patterns. 20 R81 assumes it of the DAC's
parameter frames; that the mode frame is no CHCFG frame and no error frame is a premise of the model's (log 16). The
decoder does not need it. -/
def Config.FramesDistinct (cfg : Config) : Bool :=
  cfg.adcModeFrame != poisonFrame && !isChcfg cfg.adcModeFrame &&
  cfg.dacInitFrame != nullFrame && cfg.dacReadReq != nullFrame && cfg.dacReadReq != cfg.dacInitFrame &&
  cfg.dacWriteNibble != 0 && cfg.dacInitFrame.b0.extractLsb' 4 4 != cfg.dacWriteNibble &&
  cfg.dacReadReq.b0.extractLsb' 4 4 != cfg.dacWriteNibble

/-! ### The encoder -/

/-- The CHCFG frame from its 24-bit pattern (R91). -/
def chcfgWord (channel : AdcChan) (enabled : Bool) (setup : BitVec 3) (p : Fin 16) (n : Fin 17) : BitVec 24 :=
  0b0001#4 ++ BitVec.ofNat 4 channel.val ++ BitVec.ofBool enabled ++ setup ++ 0b00#2 ++ BitVec.ofNat 5 p.val ++
    BitVec.ofNat 5 n.val

/-- The DAC write frame from its 24-bit pattern (R95). -/
def dacWriteWord (nibble : BitVec 4) (code : DacCode) : BitVec 24 := nibble ++ code

/-- A 24-bit pattern as three bytes, most significant first (20 R67). -/
def bytesOfPattern (w : BitVec 24) : Bytes3 :=
  ⟨w.extractLsb' 16 8, w.extractLsb' 8 8, w.extractLsb' 0 8⟩

/-- The descriptor that names the instruction (R99 to R101), or the frame and the line that carries it
(R90 to R98). -/
def encode (cfg : Config) : Instr → Descriptor
  | .buildFrame blockSize blockCount data => .op 0x01 (.frameSpec blockSize blockCount data) rfl
  | .adcCfgEncode channel state setup p n => .op 0x02 (.channelConfig channel state setup p n) rfl
  | .adcCfgDecode frame => .op 0x03 (.bytes3 frame) rfl
  | .adcDisableAllEncode => .op 0x04 .none rfl
  | .dacV2c v => .op 0x05 (.volts v) rfl
  | .dacC2v code => .op 0x06 (.code20 code) rfl
  | .dacWriteEncode code => .op 0x07 (.code20 code) rfl
  | .dacReadDecode frame => .op 0x08 (.bytes3 frame) rfl
  | .adcCodeDecode frame => .op 0x09 (.bytes3 frame) rfl
  | .adcConfigureChannel channel state setup p n => .op 0x10 (.channelConfig channel state setup p n) rfl
  | .adcDisableAll => .op 0x11 .none rfl
  | .adcSelectMode => .op 0x12 .none rfl
  | .adcWaitDrdy => .op 0x13 .none rfl
  | .adcReadChannel channel => .op 0x14 (.adcChannel channel) rfl
  | .adcFullReading => .op 0x15 .none rfl
  | .dacInitAll => .op 0x20 .none rfl
  | .dacSetVoltage channel v updateOutputs => .op 0x21 (.setVoltage channel v updateOutputs) rfl
  | .dacReadVoltage channel => .op 0x22 (.dacChannel channel) rfl
  | .dacReadRegister channel => .op 0x23 (.dacChannel channel) rfl
  | .dacUpdateOutputs => .op 0x24 .none rfl
  | .rampPlan plan => .op 0x30 (.plan plan) rfl
  | .rampPrime activeDacMask vInitial => .op 0x31 (.prime activeDacMask vInitial) rfl
  | .rampSimple plan => .op 0x32 (.plan plan) rfl
  | .rampBuffered plan => .op 0x33 (.plan plan) rfl
  | .readStatus => .op 0x40 .none rfl
  | .wireAdcChcfg channel enabled setup p n =>
    .frame .adcChcfg .adcSelect (bytesOfPattern (chcfgWord channel enabled setup p n)).toList
  | .wireAdcDisableAll => .frame .adcDisableAll .adcSelect disableAllPattern
  | .wireAdcMode => .frame .adcMode .adcSelect cfg.adcModeFrame.toList
  | .wireAdcDataRead => .frame .adcDataRead .adcSelect (dataReadPattern cfg)
  | .wireDacWrite channel code =>
    .frame .dacWrite (.sync channel) (bytesOfPattern (dacWriteWord cfg.dacWriteNibble code)).toList
  | .wireDacReadRequest channel => .frame .dacReadRequest (.sync channel) cfg.dacReadReq.toList
  | .wireDacReadNull channel => .frame .dacReadNull (.sync channel) nullFrame.toList
  | .wireDacInit channel => .frame .dacInit (.sync channel) cfg.dacInitFrame.toList
  | .wirePoison => .frame .poison .adcSelect poisonFrame.toList

/-! ### Words of opcode_table.json -/

/-- The plan whose every operand is zero. -/
def zeroPlan : Plan where
  activeDacMask := 0
  vInitial := #v[0, 0, 0, 0]
  vFinal := #v[0, 0, 0, 0]
  stepCount := 0
  stepDelay := 0
  activeAdcMask := 0

/-- The operand record of the opcode's shape (R101) with every operand zero; no operands where R101 gives none
or the opcode is outside the map. `BUILD_FRAME` has no record of zero sizes (41 R130): its record is the smallest
that can be written, one block of one zero byte (log 12). -/
def zeroOperands (opcode : Byte) : Operands :=
  match opcode with
  | 0x01#8 => .frameSpec 1 1 [0]
  | 0x02#8 | 0x10#8 => .channelConfig 0 0 0 0 0
  | 0x03#8 | 0x08#8 | 0x09#8 => .bytes3 ⟨0, 0, 0⟩
  | 0x05#8 => .volts 0
  | 0x06#8 | 0x07#8 => .code20 0
  | 0x14#8 => .adcChannel 0
  | 0x21#8 => .setVoltage 0 0 false
  | 0x22#8 | 0x23#8 => .dacChannel 0
  | 0x30#8 | 0x32#8 | 0x33#8 => .plan zeroPlan
  | 0x31#8 => .prime 0 #v[0, 0, 0, 0]
  | _ => .none

/-- The `n` bytes of a pattern, most significant first (20 R67). -/
def bytesOfNat : Nat → Nat → List Byte
  | 0, _ => []
  | n + 1, w => BitVec.ofNat 8 (w / 256 ^ n) :: bytesOfNat n w

/-- A record of zeros fits its opcode. -/
theorem zeroOperands_fits (opcode : Byte) : (zeroOperands opcode).fits opcode = true := by
  revert opcode; decide

/-- The wire frame that the bytes of a table row stand for. A table row is a word alone, with no operation that sent
it, so here only is a kind taken from the bytes, the patterns with fixed bits before the parameter frames (log 25). A
DAC frame goes on `SYNC_LINE[0]`, as a channel operand of zero. -/
def tableFrame (bytes : List Byte) : Descriptor :=
  match bytes with
  | [b0, b1, b2] =>
    let f : Bytes3 := ⟨b0, b1, b2⟩
    if isChcfg f then .frame .adcChcfg .adcSelect bytes
    else if f = poisonFrame then .frame .poison .adcSelect bytes
    else if f = nullFrame then .frame .dacReadNull (.sync 0) bytes
    else if f = Config.board.adcModeFrame then .frame .adcMode .adcSelect bytes
    else if f = Config.board.dacInitFrame then .frame .dacInit (.sync 0) bytes
    else if f = Config.board.dacReadReq then .frame .dacReadRequest (.sync 0) bytes
    else .frame .dacWrite (.sync 0) bytes
  | [_, _, _, _] => .frame .adcDataRead .adcSelect bytes
  | _ => .frame .adcDisableAll .adcSelect bytes

/-- The descriptor that the word `w` of a table row of `nbits` bits stands for: an opcode byte with a zero
operand record, or the bytes of a frame. -/
def tableDescriptor (nbits w : Nat) : Descriptor :=
  if nbits ≤ 8 then .op (BitVec.ofNat 8 w) (zeroOperands (BitVec.ofNat 8 w)) (zeroOperands_fits _)
  else tableFrame (bytesOfNat (nbits / 8) w)

/-- The instruction the decoder reads from the word `w` of a table row of `nbits` bits. -/
def decodeTableWord (nbits w : Nat) : Option Instr :=
  (decode Config.board (tableDescriptor nbits w)).instr?

end Sys2Proof
end

