-- ==== Sys2Proof/Machine/State.lean ====
section
/-!
DEFINITION. The state of the block (10_state.md R20 to R34) as plain data, with the parameters, the
environment's inputs and the reference chips beside it; error codes and result values; the reasons a step can
stop; and the state right after reset (70_reset_and_hazards.md R290, R292).
-/

namespace Sys2Proof.Machine

/-! ### Frames, errors, results -/

/-- A frame: `blockCount` blocks of `blockSize` bytes (20 R60). -/
structure Frame where
  blockSize : Nat
  blockCount : Nat
  bytes : List Byte
  deriving DecidableEq, Repr

/-- The error names of 60 R260; `none` is success. -/
inductive Err where
  | none
  | invalidState
  | invalidSetup
  | invalidInputPair
  | invalidInput1
  | invalidInput2
  | voltageOverrange
  | invalidStepCount
  | dataReadyTimeout
  | frameCapacityExceeded
  | illegalOperation
  deriving DecidableEq, Repr

/-- The states of the AdcDriver (10 R25, 44 R199). -/
inductive AdcState where
  | idle
  | modeSelected
  | awaitingDataReady
  | dataCaptured
  deriving DecidableEq, Repr

/-- The states of the RampSequencer (10 R28, 46 R238). -/
inductive RampState where
  | idle
  | configured
  | steppingWithoutCapture
  | steppingWithCapture
  | complete
  deriving DecidableEq, Repr

/-- One result of a full reading (44 R197). -/
structure Reading where
  channel : AdcChan
  code : AdcCode
  voltage : Volts
  deriving DecidableEq, Repr

/-- A capture record of a buffered ramp (46 R240). -/
structure CaptureRecord where
  pass : Nat
  channel : AdcChan
  code : AdcCode
  voltage : Volts
  deriving DecidableEq, Repr

/-- The record `ADC_CFG_DECODE` returns (42 R154). `channel` is `b0 - 0x10` as an integer, meaningful only when
`valid` is true (log 27). -/
structure ChannelConfig where
  valid : Bool
  channel : Int
  enabled : Bool
  setup : BitVec 3
  inputPositive : BitVec 5
  inputNegative : BitVec 5
  deriving DecidableEq, Repr

/-- The part of a DAC channel's record that `READ_STATUS` returns (47 R250). -/
structure DacStatus where
  lastCode : Option DacCode
  lastReadCode : Option DacCode
  lastReadVoltage : Option Volts
  deriving DecidableEq, Repr

/-- The record `READ_STATUS` returns (47 R250). -/
structure StatusRecord where
  lastErr : BitVec 4
  adcState : AdcState
  rampState : RampState
  enabled : Vector Bool 16
  adcCode : Vector (Option AdcCode) 16
  adcVoltage : Vector (Option Volts) 16
  dac : Vector DacStatus 4
  rampStepsDone : BitVec 32
  rampCancelled : Bool
  rampPasses : BitVec 32
  cancelReq : Bool
  deriving DecidableEq, Repr

/-- The value of a `Complete(err, value)` (30 R102), with the shape the operation's rule gives. -/
inductive Value where
  | unit
  /-- `Frame{blockSize, blockCount, bytes}` (41 R130, 42 R155). -/
  | frame (f : Frame)
  /-- Three bytes: a packed or poisoned frame (42 R153), a DAC write frame (43 R175). -/
  | bytes3 (f : Bytes3)
  | channelConfig (c : ChannelConfig)
  | code (c : DacCode)
  | volts (v : Volts)
  /-- `{code, voltage}` (44 R196, R201). -/
  | reading (code : AdcCode) (voltage : Volts)
  | readings (rs : List Reading)
  /-- `dv[0..3]` (46 R231). -/
  | deltas (dv : Vector (Option Volts) 4)
  /-- `{stepsDone, cancelled, passes}` (46 R236, R237). -/
  | rampResult (stepsDone : BitVec 32) (cancelled : Bool) (passes : BitVec 32)
  | status (r : StatusRecord)
  deriving DecidableEq, Repr

/-- An interface event (20 R61, 00 R14), with the answer the environment gave. -/
inductive Event where
  | transfer (line : Line) (frame : Frame) (hold : Bool) (rx : List Byte)
  | setLevel (pin : Pin) (lvl : Level)
  | readLevel (pin : Pin) (lvl : Level)
  | setDirection (pin : Pin) (mode : PinMode)
  | sleep (ms : BitVec 32)
  | emit (record : CaptureRecord)
  | complete (err : Err) (value : Value)
  deriving DecidableEq, Repr

/-! ### The sequencer position -/

/-- The registers of a ramp that are not operands (10 R29). -/
structure RampRegs where
  dv : Vector (Option Volts) 4
  /-- The step index `k` of 46 R236. -/
  step : Nat
  rampErr : Err
  deriving DecidableEq, Repr

/-- Who takes a full reading: `ADC_FULL_READING` with the results so far, or pass `pass` of a buffered ramp
(44 R197, 46 R237). -/
inductive Pass where
  | reading (results : List Reading)
  | ramp (regs : RampRegs) (pass : Nat)
  deriving DecidableEq, Repr

/-- The `locals` of 10 R21: where the pseudocode of the operation in progress rests after its last event, with
the values of its local variables there. Operands are in the operation itself. -/
inductive Point where
  /-- Before the first event. -/
  | start
  /-- After the last event: the operation's `Complete(err, value)` is next. -/
  | finish (err : Err) (value : Value)
  /-- `DAC_INIT_ALL`: the channels not yet initialised (45 R210). -/
  | initNext (todo : List DacChan)
  /-- `DAC_SET_VOLTAGE`: the write frame with this code has been sent (45 R211). -/
  | wrote (code : DacCode)
  /-- `DAC_SET_VOLTAGE`: the latch is low (45 R213). -/
  | lowered (code : DacCode)
  /-- `DAC_UPDATE_OUTPUTS`: the latch is low (45 R214). -/
  | pulseLow
  /-- `readDac`: the read request has been sent (45 R215). -/
  | readRequested
  /-- `ADC_WAIT_DRDY`: `polls` reads so far, all high (44 R193). -/
  | polling (polls : Nat)
  /-- `ADC_WAIT_DRDY`: the last read allowed was high (44 R194). -/
  | waitTimedOut
  /-- `ADC_READ_CHANNEL`: the data frame has been transferred (44 R196). -/
  | captured (code : AdcCode) (voltage : Volts)
  /-- A full reading: the mode frame is sent or a channel is done; `todo` are the channels left (44 R197). -/
  | passNext (pass : Pass) (todo : List AdcChan)
  /-- A full reading waits for channel `c`: `polls` reads so far, all high. -/
  | passPolling (pass : Pass) (c : AdcChan) (todo : List AdcChan) (polls : Nat)
  /-- A full reading has read `low` for channel `c`: its data frame is next. -/
  | passReady (pass : Pass) (c : AdcChan) (todo : List AdcChan)
  /-- A full reading timed out. -/
  | passTimedOut (pass : Pass)
  /-- A buffered ramp's pass has read channel `c`: its capture record is next (46 R240). -/
  | passCaptured (regs : RampRegs) (pass : Nat) (c : AdcChan) (code : AdcCode) (voltage : Volts)
      (todo : List AdcChan)
  /-- Priming: a write frame has been sent; its latch pulse is next (46 R232). -/
  | primeWrote (regs : RampRegs) (todo : List DacChan)
  /-- Priming: the latch is low. -/
  | primeLowered (regs : RampRegs) (todo : List DacChan)
  /-- Priming: a channel's pulse is done; `todo` are the channels left. -/
  | primeNext (regs : RampRegs) (todo : List DacChan)
  /-- Step `regs.step`: a write frame has been sent; `todo` are the channels left (46 R234). -/
  | stepNext (regs : RampRegs) (todo : List DacChan)
  /-- Step `regs.step`: the latch is low. -/
  | stepLowered (regs : RampRegs)
  /-- Step `regs.step`: the latch pulse is done; the sleep is next. -/
  | stepRaised (regs : RampRegs)
  /-- Step `regs.step`: the sleep is done. -/
  | slept (regs : RampRegs)
  deriving DecidableEq, Repr

/-- The sequencer position (10 R21). -/
inductive SeqPos where
  /-- No operation is in progress. -/
  | idle
  /-- `Busy(op, operands, k, locals)`: `events` is `k`, the number of events the operation has performed. -/
  | busy (op : Instr) (events : Nat) (locals : Point)
  /-- Inside the reset sequence of 70 R292, `done` of its three events performed (log 10). -/
  | resetting (done : Nat)
  deriving DecidableEq, Repr

/-! ### The chips (environment) -/

/-- One channel of the reference DAC (20 R80). -/
structure RefDacChannel where
  /-- The output is tristated. -/
  tri : Bool
  /-- `dacReg[c]`: the code last written. -/
  reg : DacCode
  /-- `out[c]`: the code driving the analog output. -/
  out : DacCode
  /-- `pend[c]`: a code was written since the last latch pulse. -/
  pend : Bool
  /-- The last transfer on this line was the read request, so the next one shifts the register out (R81). -/
  readArmed : Bool
  deriving DecidableEq, Repr

/-- The reference chips of 20 R80 to R83. No rule of the block reads them (R84). -/
structure RefChips where
  dac : Vector RefDacChannel 4
  /-- The latch line is low: a pulse has begun (R82). -/
  latchLow : Bool
  /-- The ADC's channel-configuration registers 0x10..0x1F (R71). -/
  adcReg : Vector (BitVec 16) 16
  /-- The channels whose conversion results the ADC has still to deliver, in order (R83). -/
  adcDue : List AdcChan
  /-- The ADC drives `DRDY_PIN` low for the first of these results, as a poll has seen (R83, log 16). -/
  drdyLow : Bool
  deriving DecidableEq, Repr

/-! ### The state -/

/-- One DAC channel's record (10 R26). -/
structure DacChannel where
  syncLine : Line
  lastCode : Option DacCode
  lastReadCode : Option DacCode
  lastReadVoltage : Option Volts
  ge : Rat
  os : Rat
  deriving DecidableEq, Repr

/-- What the host does, beside issuing operations, before one step (10 R30, 70 R290). -/
inductive HostSignal where
  | quiet
  /-- The host sets `cancelReq`. -/
  | cancel
  /-- Reset is asserted. -/
  | reset
  deriving DecidableEq, Repr

/-- The state: the block's tuple of 10 R33, then the parameters, the log of events, the environment's inputs and
the reference chips. -/
structure State where
  seqpos : SeqPos
  enabled : Vector Bool 16
  adcCode : Vector (Option AdcCode) 16
  adcVoltage : Vector (Option Volts) 16
  adcState : AdcState
  dac : Vector DacChannel 4
  /-- `LAST_ERR`, a 4-bit field (R27). -/
  lastErr : BitVec 4
  rampState : RampState
  cancelReq : Bool
  rampStepsDone : BitVec 32
  rampCancelled : Bool
  rampPasses : BitVec 32
  /-- The level the block drives on `LATCH_PIN`; none before the reset sequence drives it (R32). -/
  latchLevel : Option Level
  /-- The parameters of 00 R10 and R11; no step changes them. -/
  cfg : Config
  /-- The interface events so far, the newest first (20 R61). -/
  log : List Event
  /-- The descriptors the host will issue, the next one first (20 R77). -/
  hostQueue : List Descriptor
  /-- The host's signal before each coming step; none left means quiet (20 R77, 70 R290). -/
  signals : List HostSignal
  /-- The transport's answers to the coming transfers, one a transfer; free when none is left (20 R66). -/
  rxAnswers : List (List Byte)
  /-- The answers to the coming reads of a pin; free when none is left (20 R66). -/
  levelAnswers : List Level
  /-- How many free values have been used: the model's own counter. -/
  freeCount : Nat
  chips : RefChips
  deriving DecidableEq, Repr

/-! ### Why a step stops -/

/-- Faults. -/
inductive Fault where
  /-- Raised by `resume` operations whose sequencer position holds locals that are no point of the operation in
  progress. No run from reset reaches such a state (10 R21). Safe: the model stops where the hardware cannot
  be. -/
  | badPosition
  deriving DecidableEq, Repr

/-- Refusals. -/
inductive Refusal where
  /-- Raised by `exec` for an instruction without a meaning; no arm uses it. Safe. -/
  | notModelled (mnemonic : String)
  /-- Raised by a meaning asked to issue an instruction while another operation is in progress or the reset
  sequence runs: the host has no such move (20 R77, U18, D38). Safe. -/
  | issuedWhileBusy
  /-- Raised by `BUILD_FRAME` when the sizes do not fit the data: such a descriptor cannot be written at the
  interface (41 R130, U16, V-F7). Safe. -/
  | illFormedDescriptor
  /-- Raised by `step` for bytes in the place of a wire frame that are no frame of the kind they are sent as
  (30 R90 to R98, R103). Safe. -/
  | unknownFrame
  deriving DecidableEq, Repr

/-! ### Reset -/

/-- A DAC channel's record at reset (10 R26, R33). -/
def DacChannel.reset (cfg : Config) (c : DacChan) : DacChannel where
  syncLine := .sync c
  lastCode := none
  lastReadCode := none
  lastReadVoltage := none
  ge := cfg.ge[c]
  os := cfg.os[c]

/-- The reference DAC's channel at power-up: tristated, the codes unknown (20 R80); nothing pending (95 P1). -/
def RefDacChannel.powerUp (c : DacChan) : RefDacChannel where
  tri := true
  reg := Config.powerUpDacReg c
  out := Config.powerUpOut c
  pend := false
  readArmed := false

/-- The reference chips at power-up (20 R80, log 15, 16). -/
def RefChips.powerUp : RefChips where
  dac := #v[.powerUp 0, .powerUp 1, .powerUp 2, .powerUp 3]
  latchLow := false
  adcReg := Vector.ofFn Config.powerUpAdcReg
  adcDue := []
  drdyLow := false

/-- The machine right after reset: every field of 10 R33 at its reset value and the three events of 70 R292 made.
The parameters are R10's unknown ones and R11's defaults; no input is queued (log 4, 22). -/
def State.reset : State where
  seqpos := .idle
  enabled := Vector.replicate 16 false
  adcCode := Vector.replicate 16 none
  adcVoltage := Vector.replicate 16 none
  adcState := .idle
  dac := #v[.reset .board 0, .reset .board 1, .reset .board 2, .reset .board 3]
  lastErr := 0
  rampState := .idle
  cancelReq := false
  rampStepsDone := 0
  rampCancelled := false
  rampPasses := 0
  latchLevel := some .high
  cfg := .board
  log := [.setDirection .drdy .input, .setLevel .latch .high, .setDirection .latch .output]
  hostQueue := []
  signals := []
  rxAnswers := []
  levelAnswers := []
  freeCount := 0
  chips := .powerUp

end Sys2Proof.Machine
end

