-- ==== Sys2Proof/Machine/Chips.lean ====
section
/-!
DEFINITION. The reference model of the chips (20_memory.md R80 to R84): what a transfer or a latch pulse does to
the DAC and the ADC, and what the reference DAC answers. An observer of the block's events: no rule of the block
reads it, so no step of the block depends on it.
-/

namespace Sys2Proof.Machine

/-- R81: what DAC channel `c` does with a frame on `SYNC_LINE[c]`. -/
def RefDacChannel.receive (cfg : Config) (bytes : List Byte) (ch : RefDacChannel) : RefDacChannel :=
  match bytes with
  | [b0, b1, b2] =>
    let f : Bytes3 := ⟨b0, b1, b2⟩
    if f = cfg.dacInitFrame then { ch with tri := false, readArmed := false }
    else if f = cfg.dacReadReq then { ch with readArmed := true }
    else if b0 &&& 0xF0 = cfg.dacWriteCtrl then
      { ch with reg := dacCodeOfBytes f, pend := true, readArmed := false }
    else { ch with readArmed := false }
  | _ => { ch with readArmed := false }

/-- R82: what a latch pulse does to one channel. -/
def RefDacChannel.commit (ch : RefDacChannel) : RefDacChannel :=
  if ch.pend then { ch with out := ch.reg, pend := false } else ch

/-- A 3-byte block on `ADC_SELECT` writes the channel register it addresses (R71, 30 R91). DESIGN CHOICE (log 16): a
block that has not the fixed bits of R91's pattern writes no register. -/
def refAdcWrite (f : Bytes3) (regs : Vector (BitVec 16) 16) : Vector (BitVec 16) 16 :=
  if isChcfg f then regs.set (f.b0.extractLsb' 0 4).toNat (f.b1 ++ f.b2) (f.b0.extractLsb' 0 4).isLt else regs

/-- The blocks of a configuration frame, in order (R71: channel i at offset 3i). -/
def refAdcWriteAll : List Byte → Vector (BitVec 16) 16 → Vector (BitVec 16) 16
  | b0 :: b1 :: b2 :: rest, regs => refAdcWriteAll rest (refAdcWrite ⟨b0, b1, b2⟩ regs)
  | _, regs => regs

/-- The channels the ADC has enabled, ascending: bit 15 of the channel register (30 R91). -/
def RefChips.adcEnabled (chips : RefChips) : List AdcChan :=
  allAdcChans.filter fun i => chips.adcReg[i].getLsbD 15

/-- R83: what the ADC does with a frame: the mode frame makes one result due per enabled channel, ascending; a
data-read frame delivers the next, and the line is no longer low for it; a configuration frame writes channel
registers.

DESIGN CHOICE (log 16): R83 does not say what a mode frame does while results of an earlier one are due. Here it starts
over: the results still due are dropped and replaced by one for each channel enabled now.

DESIGN CHOICE (log 16): nor does it say whether a channel counts as enabled at the mode frame or later. Here the results
due are fixed at the mode frame: a configuration or disable-all frame sent while results are due writes the channel
registers and leaves `adcDue` and `drdyLow` as they are.

DESIGN CHOICE (log 16): 00 R10 puts no constraint on `ADC_MODE_FRAME`, and R81 assumes only the DAC frames distinct. A
frame with the bytes of the mode frame is taken as the mode frame, even where they are those of a configuration frame,
and writes no channel register. A frame of 4 bytes is taken as a data-read frame.

DESIGN CHOICE (log 16): 70 R298 says of a read without a preceding ready only that it returns whatever the chip shifts
out. Here it takes the first result due all the same, whether or not the line has read low; with none due it changes
nothing of them. -/
def RefChips.adcReceive (cfg : Config) (bytes : List Byte) (chips : RefChips) : RefChips :=
  if bytes = cfg.adcModeFrame.toList then { chips with adcDue := chips.adcEnabled, drdyLow := false }
  else if bytes.length = 4 then { chips with adcDue := chips.adcDue.tail, drdyLow := false }
  else { chips with adcReg := refAdcWriteAll bytes chips.adcReg }

/-- R83: the ADC drives `DRDY_PIN` low for each result. When it does so is not given, so the chips learn it from the
poll that reads low while a result is due (log 16). -/
def RefChips.sawDrdy (lvl : Level) (chips : RefChips) : RefChips :=
  if lvl = .low ∧ chips.adcDue ≠ [] then { chips with drdyLow := true } else chips

/-- What one interface event of the block does to the chips. A pulse is `low` then `high` on `LATCH_PIN`; the
commit is complete at its second event (R82, D41). -/
def RefChips.observe (cfg : Config) (e : Event) (chips : RefChips) : RefChips :=
  match e with
  | .transfer (.sync c) frame _ _ => { chips with dac := chips.dac.set c (chips.dac[c].receive cfg frame.bytes) }
  | .transfer .adcSelect frame _ _ => chips.adcReceive cfg frame.bytes
  | .setLevel .latch .low => { chips with latchLow := true }
  | .setLevel .latch .high =>
    if chips.latchLow then { chips with latchLow := false, dac := chips.dac.map RefDacChannel.commit } else chips
  | .readLevel .drdy lvl => chips.sawDrdy lvl
  | .setLevel .drdy _ | .readLevel .latch _ | .setDirection .. | .sleep _ | .emit _ | .complete .. => chips

/-- Does the answer of this event agree with the reference chips? R81: after a read request the next transfer on that
line carries `dacReg[c]` in its low 20 bits. R83: `DRDY_PIN` reads low only for a result that is due, and, once low for
a result, stays low until the result is read (log 16). Every other answer is free. -/
def RefChips.Agrees (e : Event) (chips : RefChips) : Bool :=
  match e with
  | .transfer (.sync c) _ _ rx =>
    if chips.dac[c].readArmed then
      match rx with
      | [r0, r1, r2] => dacCodeOfBytes ⟨r0, r1, r2⟩ == chips.dac[c].reg
      | _ => false
    else true
  | .readLevel .drdy .low => chips.adcDue ≠ []
  | .readLevel .drdy .high => !chips.drdyLow
  | .transfer .adcSelect .. | .setLevel .. | .readLevel .latch _ | .setDirection .. | .sleep _ | .emit _
  | .complete .. => true

end Sys2Proof.Machine
end

