-- ==== Sys2Proof/Machine/Flags.lean ====
section
/-!
DEFINITION. The error codes of the 4-bit field `LAST_ERR` (60_exceptions.md R260, 10_state.md R27), the first
error of a ramp (46 R239) and the derived flags `busy` and `cancelReq` (10 R22, R30).
-/

namespace Sys2Proof.Machine

/-- The code of an error name (R260). -/
def Err.code : Err → BitVec 4
  | .none => 0
  | .invalidState => 1
  | .invalidSetup => 2
  | .invalidInputPair => 3
  | .invalidInput1 => 4
  | .invalidInput2 => 5
  | .voltageOverrange => 6
  | .invalidStepCount => 7
  | .dataReadyTimeout => 8
  | .frameCapacityExceeded => 9
  | .illegalOperation => 10

/-- `if e ≠ None and rampErr = None: rampErr <- e` (46 R232, R234): the first error met is kept. -/
def Err.keepFirst (rampErr e : Err) : Err :=
  if rampErr = .none then e else rampErr

/-- `busy = (seqpos ≠ Idle)` (10 R22). -/
def State.isBusy (s : State) : Bool := s.seqpos != .idle

/-- `cancelReq` as it reads: hardwired to 0 when `CANCEL_SUPPORTED` is false (10 R30). -/
def State.cancelBit (s : State) : Bool := s.cfg.cancelSupported && s.cancelReq

/-- The host's write of `cancelReq`: ignored when `CANCEL_SUPPORTED` is false (10 R30). -/
def State.writeCancel (s : State) : State :=
  if s.cfg.cancelSupported then { s with cancelReq := true } else s

end Sys2Proof.Machine
end

