-- ==== Sys2Proof/Machine/Operands.lean ====
section
/-!
DEFINITION. The operand forms (30_encoding.md R101): masks and flag arrays as the channels they select, in
ascending order; and the byte-level readings of frames, most significant byte first (20 R67).
-/

namespace Sys2Proof.Machine

/-- The channels of a `mask4`, ascending (46 R232). -/
def dacChansOf (mask : BitVec 4) : List DacChan := allDacChans.filter fun c => mask.getLsbD c.val

/-- The channels of a `mask16`, ascending (44 R197). -/
def adcChansOf (mask : BitVec 16) : List AdcChan := allAdcChans.filter fun i => mask.getLsbD i.val

/-- The channels whose `enabled` bit is set, ascending (44 R198: the snapshot at issue). -/
def enabledChans (enabled : Vector Bool 16) : List AdcChan := allAdcChans.filter fun i => enabled[i]

/-- `MemWrite(i, n, v)`: the `n` bytes of `v` at offsets `i..i+n-1`, most significant byte first (20 R60). -/
def memWrite (frame : List Byte) (i : Nat) : Nat → Nat → List Byte
  | 0, _ => frame
  | n + 1, v => memWrite (frame.set i (BitVec.ofNat 8 (v / 256 ^ n))) (i + 1) n v

/-- `MemRead(i, n)`: `n` bytes at offset `i` as one unsigned integer, most significant byte first (20 R60). -/
def memRead (frame : List Byte) (i : Nat) : Nat → Nat
  | 0 => 0
  | n + 1 => (frame.getD i 0).toNat * 256 ^ n + memRead frame (i + 1) n

/-- Three bytes as one unsigned integer, most significant byte first. -/
def natOfBytes3 (f : Bytes3) : Nat := (f.b0 ++ f.b1 ++ f.b2 : BitVec 24).toNat

/-- A one-block frame: what every frame the block builds for itself is (20 R63, 41 R131). -/
def oneBlock (bytes : List Byte) : Frame := ⟨bytes.length, 1, bytes⟩

end Sys2Proof.Machine
end

