-- ==== Sys2Proof/Machine/Ops.lean ====
section
/-!
DEFINITION. The named operations over the state: the interface events of 20_memory.md R61, the end of an operation
(with or without an error: 30 R102, 60 R261 to R263), the sequencer position (10 R21), and reset (70 R290, R292).
-/

namespace Sys2Proof.Machine

/-- The outcome of a step of this machine. -/
abbrev Outcome := Host.Outcome State Fault Refusal

/-! ### Interface events -/

/-- One event happens: it is appended to the observable sequence, and the chips see it (20 R61). -/
def State.record (e : Event) (s : State) : State :=
  { s with log := e :: s.log, chips := s.chips.observe s.cfg e }

/-- The `n` bytes of an answer: the bytes given, then free ones (20 R66: any bytes, the right length). -/
def fitAnswer : Nat → Nat → List Byte → List Byte
  | 0, _, _ => []
  | n + 1, fresh, [] => Config.freeByte fresh :: fitAnswer n (fresh + 1) []
  | n + 1, fresh, b :: bs => b :: fitAnswer n (fresh + 1) bs

/-- The bytes the next transfer of `n` bytes receives (20 R62, R66). -/
def State.rxFor (n : Nat) (s : State) : List Byte := fitAnswer n s.freeCount (s.rxAnswers.headD [])

/-- `Transfer(line, frame, false) -> rx` of a one-block frame (20 R62, R63); `rx` is `s.rxFor bytes.length`. -/
def State.transfer (line : Line) (bytes : List Byte) (s : State) : State :=
  { s with rxAnswers := s.rxAnswers.tail, freeCount := s.freeCount + bytes.length }.record
    (.transfer line (oneBlock bytes) false (s.rxFor bytes.length))

/-- The level the next `ReadLevel` answers (20 R66: either). -/
def State.levelNow (s : State) : Level := s.levelAnswers.headD (Config.freeLevel s.freeCount)

/-- `ReadLevel(DRDY_PIN) -> lvl` (44 R193); `lvl` is `s.levelNow`. -/
def State.pollDrdy (s : State) : State :=
  { s with levelAnswers := s.levelAnswers.tail, freeCount := s.freeCount + 1 }.record
    (.readLevel .drdy s.levelNow)

/-- `SetLevel(LATCH_PIN, lvl)` (45 R213, 10 R32). -/
def State.setLatch (lvl : Level) (s : State) : State :=
  { s with latchLevel := some lvl }.record (.setLevel .latch lvl)

/-- `SetDirection(pin, mode)` (70 R292). -/
def State.setDirection (pin : Pin) (mode : PinMode) (s : State) : State := s.record (.setDirection pin mode)

/-- `Sleep(ms)`: an event; no time is modelled (20 R65). -/
def State.sleep (ms : BitVec 32) (s : State) : State := s.record (.sleep ms)

/-- `Emit(record)` (46 R240). -/
def State.emit (r : CaptureRecord) (s : State) : State := s.record (.emit r)

/-- `Complete(err, value)`: the one end of an operation, with an error or without. It reports to the host, writes
`LAST_ERR` and returns the block to `Idle`; the block has no other trap and nothing returns from one
(10 R27, 30 R102, 60 R261 to R263, 00 R14 `raise`). -/
def State.complete (err : Err) (value : Value) (s : State) : State :=
  { s with seqpos := .idle, lastErr := err.code }.record (.complete err value)

/-! ### The sequencer position -/

/-- The operation `i` rests at `p`, having performed `k` events (10 R21). -/
def State.pause (i : Instr) (k : Nat) (p : Point) (s : State) : State := { s with seqpos := .busy i k p }

/-- Where the operation `i` stands: at its start when the block is idle and the host issues it (20 R77), at its
locals when it is in progress; the host has no move that issues it at any other time (U18). -/
def State.pointOf (i : Instr) (s : State) : Option (Nat × Point) :=
  match s.seqpos with
  | .idle => some (0, .start)
  | .busy j k p => if j = i then some (k, p) else none
  | .resetting _ => none

/-- Run the operation `i` from where it stands: `body k p s` performs its next event. -/
def running (i : Instr) (s : State) (body : Nat → Point → State → Outcome) : Outcome :=
  match s.pointOf i with
  | some (k, p) => body k p s
  | none => .refused .issuedWhileBusy

/-- An operation without interface events: its one step is its `Complete` (00 R15). -/
def completing (i : Instr) (err : Err) (value : Value) (s : State) : Outcome :=
  running i s fun _ p s =>
    match p with
    | .start => .next (s.complete err value)
    | _ => .fault .badPosition

/-! ### Reset -/

/-- Reset is asserted: every field of 10 R33 takes its reset value and the operation in progress is abandoned with
no `Complete` (70 R290); the latch level holds no value until the reset sequence drives it (10 R32). The chips,
the log, the parameters and the environment's inputs are not the block's to reset (70 R291). -/
def State.assertReset (s : State) : State :=
  { s with
    seqpos := .resetting 0
    enabled := Vector.replicate 16 false
    adcCode := Vector.replicate 16 none
    adcVoltage := Vector.replicate 16 none
    adcState := .idle
    dac := #v[.reset s.cfg 0, .reset s.cfg 1, .reset s.cfg 2, .reset s.cfg 3]
    lastErr := 0
    rampState := .idle
    cancelReq := false
    rampStepsDone := 0
    rampCancelled := false
    rampPasses := 0
    latchLevel := none }

/-- The next event of the reset sequence, `n` of its three events performed (70 R292). -/
def State.resetEvent (n : Nat) (s : State) : State :=
  match n with
  | 0 => { s with seqpos := .resetting 1 }.setDirection .latch .output
  | 1 => { s with seqpos := .resetting 2 }.setLatch .high
  | _ => { s with seqpos := .idle }.setDirection .drdy .input

end Sys2Proof.Machine
end

