-- ==== Sys2Proof/Machine/FrameCodec.lean ====
section
/-!
DEFINITION. FrameCodec: `BUILD_FRAME` (41_frame_codec.md R130 to R132).
-/

namespace Sys2Proof.Machine

/-- `for i in 0 .. len(data)-1: MemWrite(i, 1, data[i])`, from offset `i` on (R130). -/
def writeBytes (frame : List Byte) (i : Nat) : List Byte → List Byte
  | [] => frame
  | b :: bs => writeBytes (memWrite frame i 1 b.toNat) (i + 1) bs

/-- `BUILD_FRAME` (R130): the capacity check on the exact product, then the bytes of the frame. -/
def execBuildFrame (blockSize blockCount : BitVec 32) (data : List Byte) (s : State) : Outcome :=
  if BuildFrameOk blockSize blockCount data then
    if blockSize.toNat * blockCount.toNat > Config.frameCapacity then
      completing (.buildFrame blockSize blockCount data) .frameCapacityExceeded .unit s
    else
      completing (.buildFrame blockSize blockCount data) .none
        (.frame ⟨blockSize.toNat, blockCount.toNat, writeBytes (List.replicate data.length 0) 0 data⟩) s
  else .refused .illFormedDescriptor

end Sys2Proof.Machine
end

