-- ==== Sys2Proof/Machine/AdcConfig.lean ====
section
/-!
DEFINITION. AdcChannelConfig: validation, packing and decoding of channel configurations
(42_adc_channel_config.md R150 to R155).
-/

namespace Sys2Proof.Machine

/-- R150: `n = 16`, or `p` and `n` are 2k and 2k+1 in either order for some k in 0..7. -/
def pairOk (p n : Int) : Bool :=
  n == 16 || (List.range 8).any fun k =>
    (p == 2 * (k : Int) && n == 2 * (k : Int) + 1) || (p == 2 * (k : Int) + 1 && n == 2 * (k : Int))

/-- R151: the error of the first check that fails. -/
def validate (state setup p n : Int) : Err :=
  if ¬(state = 0 ∨ state = 1) then .invalidState
  else if setup < 0 ∨ setup > 7 then .invalidSetup
  else if ¬pairOk p n then .invalidInputPair
  else if p < 0 ∨ p > 15 then .invalidInput1
  else if n < 0 ∨ n > 16 then .invalidInput2
  else .none

/-- R152: the 3-byte CHCFG frame, built by left-shifting and OR-ing. -/
def pack (channel : AdcChan) (state setup p n : Int) : Bytes3 :=
  let tail : BitVec 16 := if n = 16 then 0b10000 else BitVec.ofInt 16 n
  let payload : BitVec 16 :=
    (BitVec.ofInt 16 state <<< 15) ||| (BitVec.ofInt 16 setup <<< 12) ||| (0b00 <<< 10) |||
    (BitVec.ofInt 16 p <<< 5) ||| tail
  ⟨BitVec.ofNat 8 (Config.adcChcfgBase + channel.val), payload.extractLsb' 8 8, payload.extractLsb' 0 8⟩

/-- R154: the fields of a frame and whether it is one that `pack` can produce. -/
def unpack (f : Bytes3) : ChannelConfig :=
  let payload : BitVec 16 := f.b1 ++ f.b2
  let p := payload.extractLsb' 5 5
  let n := payload.extractLsb' 0 5
  { valid := 0x10 ≤ f.b0.toNat && f.b0.toNat ≤ 0x1F && payload.extractLsb' 10 2 == 0 &&
      p.toNat ≤ 15 && n.toNat ≤ 16 && pairOk p.toNat n.toNat
    channel := (f.b0.toNat : Int) - 0x10
    enabled := payload.getLsbD 15
    setup := payload.extractLsb' 12 3
    inputPositive := p
    inputNegative := n }

/-- R155: `for i in 0..15: MemWrite(3*i, 3, pack(i, 0, 0, 0, 1))`. -/
def disableAllBytes : List Byte :=
  allAdcChans.foldl (fun frame i => memWrite frame (3 * i.val) 3 (natOfBytes3 (pack i 0 0 0 1)))
    (List.replicate Config.disableAllLen 0)

/-- `ADC_CFG_ENCODE` (R153). The `s32` operands are compared as mathematical integers (R151). -/
def execAdcCfgEncode (channel : AdcChan) (state setup p n : BitVec 32) (s : State) : Outcome :=
  let e := validate state.toInt setup.toInt p.toInt n.toInt
  completing (.adcCfgEncode channel state setup p n) e
    (.bytes3 (if e = .none then pack channel state.toInt setup.toInt p.toInt n.toInt else poisonFrame)) s

/-- `ADC_CFG_DECODE` (R154). -/
def execAdcCfgDecode (frame : Bytes3) (s : State) : Outcome :=
  completing (.adcCfgDecode frame) .none (.channelConfig (unpack frame)) s

/-- `ADC_DISABLE_ALL_ENCODE` (R155). -/
def execAdcDisableAllEncode (s : State) : Outcome :=
  completing .adcDisableAllEncode .none (.frame (oneBlock disableAllBytes)) s

end Sys2Proof.Machine
end

