-- ==== Sys2Proof/Machine/AdcDriver.lean ====
section
/-!
DEFINITION. AdcDriver: configuration, mode select, the data-ready wait, channel reads and full readings
(44_adc_driver.md R190 to R201). The full reading is written once, for `ADC_FULL_READING` and for the passes of a
buffered ramp.

A state write that the rules tie to a transfer is made in that transfer's step (R190, R191, R195, R199); a write
with no event of its own is made in the step of the next event (00 R15); log 7.
-/

namespace Sys2Proof.Machine

/-! ### Code conversion -/

/-- R200: `threeByteToCode`; no byte is masked. -/
def threeByteToCode (f : Bytes3) : AdcCode :=
  (f.b0.zeroExtend 24 <<< 16) ||| (f.b1.zeroExtend 24 <<< 8) ||| f.b2.zeroExtend 24

/-- R200: `adcCodeToVoltage`, exact. -/
def adcCodeToVoltage (code : AdcCode) : Volts := ((code.toNat : Rat) / Config.adcMid - 1) * Config.adcSpan

/-- `ADC_CODE_DECODE` (R201). -/
def execAdcCodeDecode (frame : Bytes3) (s : State) : Outcome :=
  completing (.adcCodeDecode frame) .none
    (.reading (threeByteToCode frame) (adcCodeToVoltage (threeByteToCode frame))) s

/-! ### Events of the driver -/

/-- The mode frame is transferred: `adcState` becomes `ModeSelected` (R192, R197, R199). -/
def State.sendMode (s : State) : State :=
  { s.transfer .adcSelect s.cfg.adcModeFrame.toList with adcState := .modeSelected }

/-- The code a data-read response carries in `rx[1..3]`; `rx[0]` is ignored (30 R94). -/
def codeOfResponse (rx : List Byte) : AdcCode := threeByteToCode ⟨rx.getD 1 0, rx.getD 2 0, rx.getD 3 0⟩

/-- The code the next data-read transfer delivers (R195). -/
def State.nextAdcCode (s : State) : AdcCode := codeOfResponse (s.rxFor 4)

/-- `readChannel(i)` (R195): the data-read transfer; the result is filed under channel `i` in the same step. -/
def State.readChannel (i : AdcChan) (s : State) : State :=
  { s.transfer .adcSelect (dataReadPattern s.cfg) with
    adcCode := s.adcCode.set i (some s.nextAdcCode)
    adcVoltage := s.adcVoltage.set i (some (adcCodeToVoltage s.nextAdcCode))
    adcState := .dataCaptured }

/-- `DRDY_TIMEOUT_POLLS = some N and polls ≥ N` (R193). -/
def timedOut (cfg : Config) (polls : Nat) : Bool :=
  match cfg.drdyTimeoutPolls with
  | none => false
  | some n => n ≤ polls

/-- One round of the loop of `waitDataReady` (R193): read the pin, then rest where the answer leads: `ready` on
low, `expired` when this was the last read allowed, else `again`. `polls` counts this read. -/
def pollStep (i : Instr) (k polls : Nat) (ready expired again : Point) (s : State) : Outcome :=
  .next (s.pollDrdy.pause i (k + 1)
    (match s.levelNow with
     | .low => ready
     | .high => if timedOut s.cfg polls then expired else again))

/-! ### Full readings -/

/-- The start of `fullReading(mask)` (R197): the mode frame; `todo` are the channels of the mask. -/
def startPass (i : Instr) (k : Nat) (pass : Pass) (todo : List AdcChan) (s : State) : Outcome :=
  .next (s.sendMode.pause i (k + 1) (.passNext pass todo))

/-- Where a pass rests after channel `c` is read (R197): `ADC_FULL_READING` appends the result, a ramp has its
capture record to emit (46 R240). -/
def afterRead (pass : Pass) (c : AdcChan) (code : AdcCode) (todo : List AdcChan) : Point :=
  match pass with
  | .reading results => .passNext (.reading (results ++ [⟨c, code, adcCodeToVoltage code⟩])) todo
  | .ramp regs p => .passCaptured regs p c code (adcCodeToVoltage code) todo

/-- `fullReading` from any point after its mode frame (R197). At its end, `atEnd` goes on with `adcState` back at
`Idle`; on a timeout `onTimeout` does. -/
def resumePass (i : Instr) (atEnd onTimeout : Pass → State → Outcome) (k : Nat) (p : Point) (s : State) : Outcome :=
  match p with
  | .passNext pass [] => atEnd pass { s with adcState := .idle }
  | .passNext pass (c :: todo) =>
    pollStep i k 1 (.passReady pass c todo) (.passTimedOut pass) (.passPolling pass c todo 1)
      { s with adcState := .awaitingDataReady }
  | .passPolling pass c todo polls =>
    pollStep i k (polls + 1) (.passReady pass c todo) (.passTimedOut pass) (.passPolling pass c todo (polls + 1)) s
  | .passReady pass c todo =>
    .next ((s.readChannel c).pause i (k + 1) (afterRead pass c s.nextAdcCode todo))
  | .passCaptured regs pass c code voltage todo =>
    .next ((s.emit ⟨pass, c, code, voltage⟩).pause i (k + 1) (.passNext (.ramp regs pass) todo))
  | .passTimedOut pass => onTimeout pass { s with adcState := .idle }
  | _ => .fault .badPosition

/-! ### Operations -/

/-- `ADC_CONFIGURE_CHANNEL` (R190): validate first; only a valid configuration is sent and recorded. -/
def execAdcConfigureChannel (channel : AdcChan) (state setup p n : BitVec 32) (s : State) : Outcome :=
  running (.adcConfigureChannel channel state setup p n) s fun k pt s =>
    match pt with
    | .start =>
      let e := validate state.toInt setup.toInt p.toInt n.toInt
      let f := pack channel state.toInt setup.toInt p.toInt n.toInt
      if e = .none then
        .next ({ s.transfer .adcSelect f.toList with enabled := s.enabled.set channel (state == 1) }.pause
          (.adcConfigureChannel channel state setup p n) (k + 1) (.finish .none (.bytes3 f)))
      else .next (s.complete e .unit)
    | .finish e v => .next (s.complete e v)
    | _ => .fault .badPosition

/-- `ADC_DISABLE_ALL` (R191). -/
def execAdcDisableAll (s : State) : Outcome :=
  running .adcDisableAll s fun k p s =>
    match p with
    | .start =>
      .next ({ s.transfer .adcSelect disableAllBytes with enabled := Vector.replicate 16 false }.pause
        .adcDisableAll (k + 1) (.finish .none .unit))
    | .finish e v => .next (s.complete e v)
    | _ => .fault .badPosition

/-- `ADC_SELECT_MODE` (R192). -/
def execAdcSelectMode (s : State) : Outcome :=
  running .adcSelectMode s fun k p s =>
    match p with
    | .start => .next (s.sendMode.pause .adcSelectMode (k + 1) (.finish .none .unit))
    | .finish e v => .next (s.complete e v)
    | _ => .fault .badPosition

/-- `ADC_WAIT_DRDY` (R194): polls without end while the pin reads high and no timeout is set (60 R273). -/
def execAdcWaitDrdy (s : State) : Outcome :=
  running .adcWaitDrdy s fun k p s =>
    match p with
    | .start =>
      pollStep .adcWaitDrdy k 1 (.finish .none .unit) .waitTimedOut (.polling 1)
        { s with adcState := .awaitingDataReady }
    | .polling polls =>
      pollStep .adcWaitDrdy k (polls + 1) (.finish .none .unit) .waitTimedOut (.polling (polls + 1)) s
    | .waitTimedOut => .next ({ s with adcState := .idle }.complete .dataReadyTimeout .unit)
    | .finish e v => .next (s.complete e v)
    | _ => .fault .badPosition

/-- `ADC_READ_CHANNEL` (R196). -/
def execAdcReadChannel (channel : AdcChan) (s : State) : Outcome :=
  running (.adcReadChannel channel) s fun k p s =>
    match p with
    | .start =>
      .next ((s.readChannel channel).pause (.adcReadChannel channel) (k + 1)
        (.captured s.nextAdcCode (adcCodeToVoltage s.nextAdcCode)))
    | .captured code voltage => .next ({ s with adcState := .idle }.complete .none (.reading code voltage))
    | _ => .fault .badPosition

/-- The end of `ADC_FULL_READING` (R198). -/
def finishReading (pass : Pass) (s : State) : Outcome :=
  match pass with
  | .reading results => .next (s.complete .none (.readings results))
  | .ramp .. => .fault .badPosition

/-- The end of `ADC_FULL_READING` on a timeout (R198). -/
def abortReading (pass : Pass) (s : State) : Outcome :=
  match pass with
  | .reading _ => .next (s.complete .dataReadyTimeout .unit)
  | .ramp .. => .fault .badPosition

/-- `ADC_FULL_READING` (R198): over a snapshot of `enabled`. -/
def execAdcFullReading (s : State) : Outcome :=
  running .adcFullReading s fun k p s =>
    match p with
    | .start => startPass .adcFullReading k (.reading []) (enabledChans s.enabled) s
    | _ => resumePass .adcFullReading finishReading abortReading k p s

end Sys2Proof.Machine
end

