-- ==== Sys2Proof/Machine/DacCode.lean ====
section
/-!
DEFINITION. DacCodeConverter: voltages and 20-bit codes, the DAC write frame and the read response
(43_dac_code_converter.md R170 to R176).
-/

namespace Sys2Proof.Machine

/-- R171: `round`, by the value of `ROUNDING`. -/
def roundQ (mode : Rounding) (x : Rat) : Int :=
  match mode with
  | .halfAwayFromZero => if 0 ≤ x then (x + 1 / 2).floor else -(-x + 1 / 2).floor
  | .halfToEven =>
    let below := x.floor
    let rest := x - below
    if rest < 1 / 2 then below
    else if 1 / 2 < rest then below + 1
    else if below % 2 = 0 then below else below + 1
  | .towardZero => if 0 ≤ x then x.floor else -(-x).floor

/-- `|v| > FULL_SCALE` (R170): 10 V itself is accepted. -/
def overrange (v : Volts) : Bool := v < -Config.fullScale || Config.fullScale < v

/-- R170 for a voltage in range: the rounded product, biased when negative, reduced mod 2^20. -/
def codeOfVolts (mode : Rounding) (v : Volts) : DacCode :=
  if v < 0 then BitVec.ofInt 20 (roundQ mode (v * Config.dacNegDiv / Config.fullScale) + Config.dacBias)
  else BitVec.ofInt 20 (roundQ mode (v * Config.dacPosDiv / Config.fullScale))

/-- R170: `voltageToCode`, none for `Overrange`. -/
def voltageToCode (mode : Rounding) (v : Volts) : Option DacCode :=
  if overrange v then none else some (codeOfVolts mode v)

/-- R172: `codeToVoltage`, with the asymmetric divisors. -/
def codeToVoltage (code : DacCode) : Volts :=
  if code.toNat ≤ 524287 then (code.toNat : Rat) * Config.fullScale / Config.dacPosDiv
  else -((Config.dacBias : Rat) - code.toNat) * Config.fullScale / Config.dacNegDiv

/-- 20 R80: the analog output of a channel of the reference DAC, in volts; none while it is tristated. -/
def RefDacChannel.analogOutput (ch : RefDacChannel) : Option Volts :=
  if ch.tri then none else some (codeToVoltage ch.out)

/-- R175: `writeFrame(code)`. -/
def writeFrame (cfg : Config) (code : DacCode) : Bytes3 :=
  ⟨(code.extractLsb' 16 4).zeroExtend 8 ||| cfg.dacWriteCtrl, code.extractLsb' 8 8, code.extractLsb' 0 8⟩

/-- R176: `readDecode`: byte 0 is masked with 0x0F before shifting. -/
def readDecode (f : Bytes3) : DacCode :=
  ((f.b0 &&& 0x0F).zeroExtend 20 <<< 16) ||| (f.b1.zeroExtend 20 <<< 8) ||| f.b2.zeroExtend 20

/-- `DAC_V2C` (R173). -/
def execDacV2c (v : Volts) (s : State) : Outcome :=
  match voltageToCode s.cfg.rounding v with
  | none => completing (.dacV2c v) .voltageOverrange (.code (BitVec.ofNat 20 Config.ovrSentinel)) s
  | some code => completing (.dacV2c v) .none (.code code) s

/-- `DAC_C2V` (R174). -/
def execDacC2v (code : DacCode) (s : State) : Outcome :=
  completing (.dacC2v code) .none (.volts (codeToVoltage code)) s

/-- `DAC_WRITE_ENCODE` (R175). -/
def execDacWriteEncode (code : DacCode) (s : State) : Outcome :=
  completing (.dacWriteEncode code) .none (.bytes3 (writeFrame s.cfg code)) s

/-- `DAC_READ_DECODE` (R176). -/
def execDacReadDecode (frame : Bytes3) (s : State) : Outcome :=
  completing (.dacReadDecode frame) .none (.code (readDecode frame)) s

end Sys2Proof.Machine
end

