-- ==== Sys2Proof/Machine/DacDriver.lean ====
section
/-!
DEFINITION. DacDriver: initialisation, voltage writes, the latch pulse and readback (45_dac_driver.md R210 to
R218).
-/

namespace Sys2Proof.Machine

/-! ### Events of the driver -/

/-- The transfer of `setVoltage(c, v, _)` with the code of an accepted voltage; `lastCode` is recorded in the same
step, whether or not the outputs are updated (R211, R218). -/
def State.writeDac (c : DacChan) (code : DacCode) (s : State) : State :=
  { s.transfer (.sync c) (writeFrame s.cfg code).toList with
    dac := s.dac.set c { s.dac[c] with lastCode := some code } }

/-- The code the second transfer of a readback delivers (R215, R176). -/
def State.nextDacCode (s : State) : DacCode :=
  readDecode ⟨(s.rxFor 3).getD 0 0, (s.rxFor 3).getD 1 0, (s.rxFor 3).getD 2 0⟩

/-- The second transfer of `readDac(c)` (R215): the null frame. R215 puts the write of `lastReadCode` in the second
transfer's step and says nothing of the step of `lastReadVoltage`; the model writes both there (DESIGN CHOICE, log 7), so
that the two always agree. -/
def State.readDacBack (c : DacChan) (s : State) : State :=
  { s.transfer (.sync c) nullFrame.toList with
    dac := s.dac.set c { s.dac[c] with
      lastReadCode := some s.nextDacCode, lastReadVoltage := some (codeToVoltage s.nextDacCode) } }

/-- `readDac(c)` followed by the operation's `Complete` with the value `result` makes of the code (R215). -/
def readDac (i : Instr) (c : DacChan) (result : DacCode → Value) (k : Nat) (p : Point) (s : State) : Outcome :=
  match p with
  | .start => .next ((s.transfer (.sync c) s.cfg.dacReadReq.toList).pause i (k + 1) .readRequested)
  | .readRequested => .next ((s.readDacBack c).pause i (k + 1) (.finish .none (result s.nextDacCode)))
  | .finish e v => .next (s.complete e v)
  | _ => .fault .badPosition

/-! ### Operations -/

/-- The next event of `DAC_INIT_ALL`: the init frame for the next channel, or the `Complete` (R210). -/
def initNext (k : Nat) (todo : List DacChan) (s : State) : Outcome :=
  match todo with
  | [] => .next (s.complete .none .unit)
  | c :: rest =>
    .next ((s.transfer (.sync c) s.cfg.dacInitFrame.toList).pause .dacInitAll (k + 1) (.initNext rest))

/-- `DAC_INIT_ALL` (R210). -/
def execDacInitAll (s : State) : Outcome :=
  running .dacInitAll s fun k p s =>
    match p with
    | .start => initNext k allDacChans s
    | .initNext todo => initNext k todo s
    | _ => .fault .badPosition

/-- `DAC_SET_VOLTAGE` (R211, R212): an overrange is rejected before any event; the value returned is the
readback-equivalent voltage of the code. -/
def execDacSetVoltage (channel : DacChan) (v : Volts) (updateOutputs : Bool) (s : State) : Outcome :=
  running (.dacSetVoltage channel v updateOutputs) s fun k p s =>
    match p with
    | .start =>
      match voltageToCode s.cfg.rounding v with
      | none => .next (s.complete .voltageOverrange (.volts Config.ovrSentinel))
      | some code =>
        .next ((s.writeDac channel code).pause (.dacSetVoltage channel v updateOutputs) (k + 1)
          (if updateOutputs then .wrote code else .finish .none (.volts (codeToVoltage code))))
    | .wrote code =>
      .next ((s.setLatch .low).pause (.dacSetVoltage channel v updateOutputs) (k + 1) (.lowered code))
    | .lowered code =>
      .next ((s.setLatch .high).pause (.dacSetVoltage channel v updateOutputs) (k + 1)
        (.finish .none (.volts (codeToVoltage code))))
    | .finish e value => .next (s.complete e value)
    | _ => .fault .badPosition

/-- `DAC_READ_VOLTAGE` (R216). -/
def execDacReadVoltage (channel : DacChan) (s : State) : Outcome :=
  running (.dacReadVoltage channel) s
    (readDac (.dacReadVoltage channel) channel fun code => .volts (codeToVoltage code))

/-- `DAC_READ_REGISTER` (R217). -/
def execDacReadRegister (channel : DacChan) (s : State) : Outcome :=
  running (.dacReadRegister channel) s (readDac (.dacReadRegister channel) channel .code)

/-- `DAC_UPDATE_OUTPUTS` (R213, R214). -/
def execDacUpdateOutputs (s : State) : Outcome :=
  running .dacUpdateOutputs s fun k p s =>
    match p with
    | .start => .next ((s.setLatch .low).pause .dacUpdateOutputs (k + 1) .pulseLow)
    | .pulseLow => .next ((s.setLatch .high).pause .dacUpdateOutputs (k + 1) (.finish .none .unit))
    | .finish e v => .next (s.complete e v)
    | _ => .fault .badPosition

end Sys2Proof.Machine
end

