-- ==== Sys2Proof/Machine/Ramp.lean ====
section
/-!
DEFINITION. RampSequencer: plan, priming, steps, the simple and the buffered ramp (46_ramp_sequencer.md R230 to
R241). Priming, steps and the end of a ramp are written once for the operations that use them.
-/

namespace Sys2Proof.Machine

/-! ### Plan and voltages -/

/-- R230: `plan`, none for `InvalidStepCount`. The deltas are exact. -/
def rampDeltas (plan : Plan) : Option (Vector (Option Volts) 4) :=
  if plan.stepCount = 0 then none
  else some (Vector.ofFn fun i : DacChan =>
    if plan.activeDacMask.getLsbD i.val then
      some ((plan.vFinal[i] - plan.vInitial[i]) / (plan.stepCount.toNat : Rat))
    else none)

/-- The voltage of step `regs.step` on an active channel: `vInitial[i] + k * dv[i]` (R234). -/
def stepVoltage (plan : Plan) (regs : RampRegs) (c : DacChan) : Volts :=
  plan.vInitial[c] + (regs.step : Rat) * (regs.dv[c].getD 0)

/-- Go through `todo` to the first channel whose voltage is in range: each overrange before it makes no transfer
and leaves its error in `rampErr` if it is the first (R232, R234, R239). -/
def skipOverrange (volts : DacChan → Volts) (rampErr : Err) : List DacChan → Err × Option (DacChan × List DacChan)
  | [] => (rampErr, none)
  | c :: rest =>
    if overrange (volts c) then skipOverrange volts (rampErr.keepFirst .voltageOverrange) rest
    else (rampErr, some (c, rest))

/-! ### Priming -/

/-- Priming from the channels `todo` on (R232): the write of the next channel in range, or `primed` when no
channel is left. -/
def primeFrom (i : Instr) (vInitial : Vector Volts 4) (primed : RampRegs → State → Outcome)
    (k : Nat) (regs : RampRegs) (todo : List DacChan) (s : State) : Outcome :=
  match skipOverrange (fun c => vInitial[c]) regs.rampErr todo with
  | (err, none) => primed { regs with rampErr := err } s
  | (err, some (c, rest)) =>
    .next ((s.writeDac c (codeOfVolts s.cfg.rounding vInitial[c])).pause i (k + 1)
      (.primeWrote { regs with rampErr := err } rest))

/-- Priming from any point after its first write (R232): each channel has its own latch pulse. -/
def resumePrime (i : Instr) (vInitial : Vector Volts 4) (primed : RampRegs → State → Outcome)
    (k : Nat) (p : Point) (s : State) : Outcome :=
  match p with
  | .primeWrote regs todo => .next ((s.setLatch .low).pause i (k + 1) (.primeLowered regs todo))
  | .primeLowered regs todo => .next ((s.setLatch .high).pause i (k + 1) (.primeNext regs todo))
  | .primeNext regs todo => primeFrom i vInitial primed k regs todo s
  | _ => .fault .badPosition

/-! ### Steps and the end of a ramp -/

/-- The end of a ramp (R236, R237): `rampState` is `Complete` and `cancelReq` is cleared, in the step of the
`Complete`. -/
def State.endRamp (err : Err) (cancelled : Bool) (passes : BitVec 32) (s : State) : State :=
  { s with rampState := .complete, cancelReq := false }.complete err
    (.rampResult s.rampStepsDone cancelled passes)

/-- Step `regs.step` from the channels `todo` on (R234): the write of the next channel in range, or the latch
pulse's first event. -/
def stepFrom (i : Instr) (plan : Plan) (k : Nat) (regs : RampRegs) (todo : List DacChan) (s : State) : Outcome :=
  match skipOverrange (stepVoltage plan regs) regs.rampErr todo with
  | (err, none) => .next ((s.setLatch .low).pause i (k + 1) (.stepLowered { regs with rampErr := err }))
  | (err, some (c, rest)) =>
    .next ((s.writeDac c (codeOfVolts s.cfg.rounding (stepVoltage plan regs c))).pause i (k + 1)
      (.stepNext { regs with rampErr := err } rest))

/-- The boundary before step `regs.step`: the end of the ramp after the last step, the cancel check of R235, else
the step. `passes` is the pass count the ramp reports: 0 in a simple ramp, `RAMP_PASSES` in a buffered one. -/
def stepBoundary (i : Instr) (plan : Plan) (passes : BitVec 32) (k : Nat) (regs : RampRegs) (s : State) : Outcome :=
  if plan.stepCount.toNat < regs.step then .next (s.endRamp regs.rampErr s.rampCancelled passes)
  else if s.cancelBit then .next ({ s with rampCancelled := true }.endRamp regs.rampErr true passes)
  else stepFrom i plan k regs (dacChansOf plan.activeDacMask) s

/-- A step from any point after its first event to its sleep (R234). `RAMP_STEPS_DONE` is written in the step of
the pulse's second event. -/
def resumeStep (i : Instr) (plan : Plan) (k : Nat) (p : Point) (s : State) : Outcome :=
  match p with
  | .stepNext regs todo => stepFrom i plan k regs todo s
  | .stepLowered regs =>
    .next ({ s.setLatch .high with rampStepsDone := BitVec.ofNat 32 regs.step }.pause i (k + 1) (.stepRaised regs))
  | .stepRaised regs => .next ((s.sleep plan.stepDelay).pause i (k + 1) (.slept regs))
  | _ => .fault .badPosition

/-- An accepted ramp starts (R236, R237): the result fields are cleared, `rampState` is `Configured`. -/
def State.beginRamp (s : State) : State :=
  { s with rampState := .configured, rampStepsDone := 0, rampCancelled := false, rampPasses := 0 }

/-- Priming is done: `rampState` is the stepping state (R238). -/
def State.primed (stepping : RampState) (s : State) : State := { s with rampState := stepping }

/-- A pass of a buffered ramp is complete (R237): `RAMP_PASSES` is 1 after the baseline and one more after each
later pass; the sum that does not fit its 32 bits is a free value (log 9). `freeCount` moves on with the mode frame of
the next pass, so each such sum has a value of its own. -/
def State.countPass (pass : Nat) (s : State) : State :=
  if pass = 0 then { s with rampPasses := 1 }
  else if s.rampPasses = BitVec.allOnes 32 then
    { s with rampPasses := Config.freePasses s.freeCount }
  else { s with rampPasses := s.rampPasses + 1 }

/-- The end of a pass of `RAMP_BUFFERED` (R237): for `stepCount = 1` the baseline is the whole ramp. -/
def endRampPass (i : Instr) (plan : Plan) (k : Nat) (pass : Pass) (s : State) : Outcome :=
  match pass with
  | .ramp regs p =>
    if plan.stepCount.toNat < 2 then
      .next ((s.countPass p).endRamp regs.rampErr (s.countPass p).rampCancelled (s.countPass p).rampPasses)
    else stepBoundary i plan (s.countPass p).rampPasses k { regs with step := p + 1 } (s.countPass p)
  | .reading _ => .fault .badPosition

/-- A timeout in a pass aborts the ramp at once, over any earlier `rampErr` (R237, R239). -/
def abortRamp (pass : Pass) (s : State) : Outcome :=
  match pass with
  | .ramp .. => .next (s.endRamp .dataReadyTimeout false s.rampPasses)
  | .reading _ => .fault .badPosition

/-! ### Operations -/

/-- `RAMP_PLAN` (R231). -/
def execRampPlan (plan : Plan) (s : State) : Outcome :=
  match rampDeltas plan with
  | none => completing (.rampPlan plan) .invalidStepCount .unit s
  | some dv => completing (.rampPlan plan) .none (.deltas dv) s

/-- `RAMP_PRIME` (R233). -/
def execRampPrime (activeDacMask : BitVec 4) (vInitial : Vector Volts 4) (s : State) : Outcome :=
  running (.rampPrime activeDacMask vInitial) s fun k p s =>
    match p with
    | .start =>
      primeFrom (.rampPrime activeDacMask vInitial) vInitial (fun regs s => .next (s.complete regs.rampErr .unit)) k
        ⟨Vector.replicate 4 none, 0, .none⟩ (dacChansOf activeDacMask) s
    | _ =>
      resumePrime (.rampPrime activeDacMask vInitial) vInitial (fun regs s => .next (s.complete regs.rampErr .unit))
        k p s

/-- What `RAMP_SIMPLE` does when priming is done: the boundary before step 1 (R236). -/
def simplePrimed (plan : Plan) (k : Nat) (regs : RampRegs) (s : State) : Outcome :=
  stepBoundary (.rampSimple plan) plan 0 k { regs with step := 1 } (s.primed .steppingWithoutCapture)

/-- `RAMP_SIMPLE` (R236). -/
def execRampSimple (plan : Plan) (s : State) : Outcome :=
  running (.rampSimple plan) s fun k p s =>
    match p with
    | .start =>
      match rampDeltas plan with
      | none => .next (s.complete .invalidStepCount .unit)
      | some dv =>
        primeFrom (.rampSimple plan) plan.vInitial (simplePrimed plan k) k ⟨dv, 0, .none⟩
          (dacChansOf plan.activeDacMask) s.beginRamp
    | .primeWrote .. | .primeLowered .. | .primeNext .. =>
      resumePrime (.rampSimple plan) plan.vInitial (simplePrimed plan k) k p s
    | .slept regs => stepBoundary (.rampSimple plan) plan 0 k { regs with step := regs.step + 1 } s
    | _ => resumeStep (.rampSimple plan) plan k p s

/-- What `RAMP_BUFFERED` does when priming is done: the baseline pass, with no sleep before it (R237). -/
def bufferedPrimed (plan : Plan) (k : Nat) (regs : RampRegs) (s : State) : Outcome :=
  startPass (.rampBuffered plan) k (.ramp regs 0) (adcChansOf plan.activeAdcMask) (s.primed .steppingWithCapture)

/-- `RAMP_BUFFERED` (R237): the pass of a step comes after the step's sleep (R241). -/
def execRampBuffered (plan : Plan) (s : State) : Outcome :=
  running (.rampBuffered plan) s fun k p s =>
    match p with
    | .start =>
      match rampDeltas plan with
      | none => .next (s.complete .invalidStepCount .unit)
      | some dv =>
        primeFrom (.rampBuffered plan) plan.vInitial (bufferedPrimed plan k) k ⟨dv, 0, .none⟩
          (dacChansOf plan.activeDacMask) s.beginRamp
    | .primeWrote .. | .primeLowered .. | .primeNext .. =>
      resumePrime (.rampBuffered plan) plan.vInitial (bufferedPrimed plan k) k p s
    | .stepNext .. | .stepLowered _ | .stepRaised _ => resumeStep (.rampBuffered plan) plan k p s
    | .slept regs =>
      startPass (.rampBuffered plan) k (.ramp regs regs.step) (adcChansOf plan.activeAdcMask) s
    | _ => resumePass (.rampBuffered plan) (endRampPass (.rampBuffered plan) plan k) abortRamp k p s

end Sys2Proof.Machine
end

