-- ==== Sys2Proof/Machine/Status.lean ====
section
/-!
DEFINITION. `READ_STATUS` (47_status.md R250).
-/

namespace Sys2Proof.Machine

/-- The observable part of one DAC channel's record (R250). -/
def DacChannel.status (d : DacChannel) : DacStatus := ⟨d.lastCode, d.lastReadCode, d.lastReadVoltage⟩

/-- The record of R250; `lastErr` is the code of the previous operation. -/
def State.status (s : State) : StatusRecord where
  lastErr := s.lastErr
  adcState := s.adcState
  rampState := s.rampState
  enabled := s.enabled
  adcCode := s.adcCode
  adcVoltage := s.adcVoltage
  dac := s.dac.map DacChannel.status
  rampStepsDone := s.rampStepsDone
  rampCancelled := s.rampCancelled
  rampPasses := s.rampPasses
  cancelReq := s.cancelBit

/-- `READ_STATUS` (R250). -/
def execReadStatus (s : State) : Outcome := completing .readStatus .none (.status s.status) s

end Sys2Proof.Machine
end

