-- ==== Sys2Proof/Machine/Wire.lean ====
section
/-!
DEFINITION. The wire frames of 30_encoding.md R90 to R98 as instructions: each is the one `Transfer` event that
carries the frame on its select line, with the effect the reference chips give it (20 R81, R83). The block's own
bookkeeping belongs to the operations that send the frames, not to the frames (41 R132, log 13).
-/

namespace Sys2Proof.Machine

/-- One transfer while no operation is in progress: a transfer is atomic and alone on the transport (20 R69). -/
def sendFrame (line : Line) (bytes : List Byte) (s : State) : Outcome :=
  match s.seqpos with
  | .idle => .next (s.transfer line bytes)
  | .busy .. | .resetting _ => .refused .issuedWhileBusy

/-- The channel-configuration frame (R91); the types of `p` and `n` admit what R103 lets be written. -/
def execWireAdcChcfg (channel : AdcChan) (enabled : Bool) (setup : BitVec 3) (p : Fin 16) (n : Fin 17) (s : State) :
    Outcome :=
  sendFrame .adcSelect (bytesOfPattern (chcfgWord channel enabled setup p n)).toList s

/-- The disable-all frame (R92). -/
def execWireAdcDisableAll (s : State) : Outcome := sendFrame .adcSelect disableAllPattern s

/-- The ADC mode frame (R93). -/
def execWireAdcMode (s : State) : Outcome := sendFrame .adcSelect s.cfg.adcModeFrame.toList s

/-- The ADC data-read frame (R94). -/
def execWireAdcDataRead (s : State) : Outcome := sendFrame .adcSelect (dataReadPattern s.cfg) s

/-- The DAC write frame (R95). -/
def execWireDacWrite (channel : DacChan) (code : DacCode) (s : State) : Outcome :=
  sendFrame (.sync channel) (bytesOfPattern (dacWriteWord s.cfg.dacWriteNibble code)).toList s

/-- The DAC read request (R96). -/
def execWireDacReadRequest (channel : DacChan) (s : State) : Outcome :=
  sendFrame (.sync channel) s.cfg.dacReadReq.toList s

/-- The DAC null frame (R96). -/
def execWireDacReadNull (channel : DacChan) (s : State) : Outcome := sendFrame (.sync channel) nullFrame.toList s

/-- The DAC initialisation frame (R97). -/
def execWireDacInit (channel : DacChan) (s : State) : Outcome :=
  sendFrame (.sync channel) s.cfg.dacInitFrame.toList s

/-- The error frame (R98): it is detected and never transferred; the transfer is aborted and nothing happens
(44 R190, 60 R262; log 14). -/
def execWirePoison (s : State) : Outcome :=
  match s.seqpos with
  | .idle => .next s
  | .busy .. | .resetting _ => .refused .issuedWhileBusy

end Sys2Proof.Machine
end

