-- ==== Sys2Proof/Machine/Dispatch.lean ====
section
/-!
DEFINITION. One arm per instruction, each one call of the instruction's meaning.
-/

namespace Sys2Proof.Machine

def exec (i : Instr) (s : State) : Host.Outcome State Fault Refusal :=
  match i with
  | .buildFrame blockSize blockCount data => Sys2Proof.Machine.execBuildFrame blockSize blockCount data s
  | .adcCfgEncode channel state setup p n => Sys2Proof.Machine.execAdcCfgEncode channel state setup p n s
  | .adcCfgDecode frame => Sys2Proof.Machine.execAdcCfgDecode frame s
  | .adcDisableAllEncode => Sys2Proof.Machine.execAdcDisableAllEncode s
  | .dacV2c v => Sys2Proof.Machine.execDacV2c v s
  | .dacC2v code => Sys2Proof.Machine.execDacC2v code s
  | .dacWriteEncode code => Sys2Proof.Machine.execDacWriteEncode code s
  | .dacReadDecode frame => Sys2Proof.Machine.execDacReadDecode frame s
  | .adcCodeDecode frame => Sys2Proof.Machine.execAdcCodeDecode frame s
  | .adcConfigureChannel channel state setup p n => Sys2Proof.Machine.execAdcConfigureChannel channel state setup p n s
  | .adcDisableAll => Sys2Proof.Machine.execAdcDisableAll s
  | .adcSelectMode => Sys2Proof.Machine.execAdcSelectMode s
  | .adcWaitDrdy => Sys2Proof.Machine.execAdcWaitDrdy s
  | .adcReadChannel channel => Sys2Proof.Machine.execAdcReadChannel channel s
  | .adcFullReading => Sys2Proof.Machine.execAdcFullReading s
  | .dacInitAll => Sys2Proof.Machine.execDacInitAll s
  | .dacSetVoltage channel v updateOutputs => Sys2Proof.Machine.execDacSetVoltage channel v updateOutputs s
  | .dacReadVoltage channel => Sys2Proof.Machine.execDacReadVoltage channel s
  | .dacReadRegister channel => Sys2Proof.Machine.execDacReadRegister channel s
  | .dacUpdateOutputs => Sys2Proof.Machine.execDacUpdateOutputs s
  | .rampPlan plan => Sys2Proof.Machine.execRampPlan plan s
  | .rampPrime activeDacMask vInitial => Sys2Proof.Machine.execRampPrime activeDacMask vInitial s
  | .rampSimple plan => Sys2Proof.Machine.execRampSimple plan s
  | .rampBuffered plan => Sys2Proof.Machine.execRampBuffered plan s
  | .readStatus => Sys2Proof.Machine.execReadStatus s
  | .wireAdcChcfg channel enabled setup p n => Sys2Proof.Machine.execWireAdcChcfg channel enabled setup p n s
  | .wireAdcDisableAll => Sys2Proof.Machine.execWireAdcDisableAll s
  | .wireAdcMode => Sys2Proof.Machine.execWireAdcMode s
  | .wireAdcDataRead => Sys2Proof.Machine.execWireAdcDataRead s
  | .wireDacWrite channel code => Sys2Proof.Machine.execWireDacWrite channel code s
  | .wireDacReadRequest channel => Sys2Proof.Machine.execWireDacReadRequest channel s
  | .wireDacReadNull channel => Sys2Proof.Machine.execWireDacReadNull channel s
  | .wireDacInit channel => Sys2Proof.Machine.execWireDacInit channel s
  | .wirePoison => Sys2Proof.Machine.execWirePoison s

end Sys2Proof.Machine
end

