-- ==== Sys2Proof/Machine/Fetch.lean ====
section
/-!
DEFINITION. The host's two moves as inputs of a step (20_memory.md R77, 70 R290): its asynchronous signal, and the
descriptor an idle block takes from it.
-/

namespace Sys2Proof.Machine

/-- The host's signal before this step takes effect: a write of `cancelReq` (10 R30), or reset (70 R290). Signals
fall between two events, never inside one. -/
def State.takeSignal (s : State) : State :=
  match s.signals with
  | [] => s
  | .quiet :: rest => { s with signals := rest }
  | .cancel :: rest => { s with signals := rest }.writeCancel
  | .reset :: rest => { s with signals := rest }.assertReset

/-- What an idle block finds at the host. -/
inductive Fetched where
  /-- The host issues nothing: the block waits (70 R290). -/
  | wait
  /-- The host issues this instruction; the state has its descriptor taken. -/
  | issue (i : Instr) (s : State)
  /-- The host issues an opcode outside the map (30 R105). -/
  | illegal (s : State)
  /-- The bytes are no frame of the kind they are sent as. -/
  | refused (r : Refusal)

/-- Take the next descriptor from the host and decode it (20 R77, 30 R99, R105). -/
def State.fetch (s : State) : Fetched :=
  match s.hostQueue with
  | [] => .wait
  | d :: rest =>
    match decode s.cfg d with
    | .instr i => .issue i { s with hostQueue := rest }
    | .illegalOpcode _ => .illegal { s with hostQueue := rest }
    | .unknownFrame => .refused .unknownFrame

/-- R105: an illegal opcode performs no event but its `Complete(IllegalOperation, unit)`. -/
def State.illegalOperation (s : State) : State := s.complete .illegalOperation .unit

end Sys2Proof.Machine
end

