-- ==== Sys2Proof/Machine/Step.lean ====
section
/-!
DEFINITION. One step of the machine: one interface event of the operation in progress, of the operation the host
issues now, or of the reset sequence (00_scope.md R15, 10 R21, 20 R77, 70 R292); and where the step takes its next
instruction from.
-/

namespace Sys2Proof.Machine

/-- The step after the host's signal has taken effect. -/
def stepNow (s : State) : Host.Outcome State Fault Refusal :=
  match s.seqpos with
  | .resetting n => .next (s.resetEvent n)
  | .busy i _ _ => exec i s
  | .idle =>
    match s.fetch with
    | .wait => .next s
    | .issue i s' => exec i s'
    | .illegal s' => .next s'.illegalOperation
    | .refused r => .refused r

/-- One step. -/
def step (s : State) : Host.Outcome State Fault Refusal := stepNow s.takeSignal

/-- The state whose very next step runs the instruction of the word `w`: the block is idle, no signal interferes,
and the host's next descriptor is the word's (log 20). -/
def State.withFetchWord (s : State) (nbits w : Nat) : State :=
  { s with seqpos := .idle, signals := [], hostQueue := tableDescriptor nbits w :: s.hostQueue }

end Sys2Proof.Machine
end

