-- ==== Sys2Proof/Machine/Text.lean ====
section
/-!
DEFINITION. The text syntax of operations: the block's assembler syntax (30_encoding.md R107 to R109). A line of
ASCII characters becomes an instruction, or the line is refused and no operation is issued. The command interface
that would read such lines is out of scope (00 R5); no step of the block reads text.
-/

namespace Sys2Proof.Machine

/-- A token: the characters between two separators. -/
abbrev Token := List Char

/-! ### Tokens -/

/-- R107: a comma, a colon or a newline ends a token. -/
def isSeparator (c : Char) : Bool := c == ',' || c == ':' || c == '\n'

/-- The tokens of a line. `tokensFrom cur` has read the characters `cur` (in reverse) of the current token. DESIGN
CHOICE (log 17): R107 does not say whether adjacent separators count as one. Here each separator ends a token, so two in
a row enclose an empty token, which is a literal of no type and refuses the line. -/
def tokensFrom (cur : Token) : List Char → List Token
  | [] => [cur.reverse]
  | c :: rest => if isSeparator c then cur.reverse :: tokensFrom [] rest else tokensFrom (c :: cur) rest

/-- The newline that ends a line starts no further token. -/
def dropLineEnd (line : List Char) : List Char :=
  match line.getLast? with
  | some '\n' => line.dropLast
  | _ => line

/-- R107: "tokenized on `,`/`:`/newline". -/
def tokenize (line : List Char) : List Token := tokensFrom [] (dropLineEnd line)

/-! ### Literals (R109) -/

/-- The value of a decimal digit. -/
def decDigit (c : Char) : Option Nat :=
  if '0' ≤ c ∧ c ≤ '9' then some (c.toNat - '0'.toNat) else none

/-- The value of a hexadecimal digit. DESIGN CHOICE (log 17): R109 does not give the case of the digits; both are read. -/
def hexDigit (c : Char) : Option Nat :=
  if '0' ≤ c ∧ c ≤ '9' then some (c.toNat - '0'.toNat)
  else if 'a' ≤ c ∧ c ≤ 'f' then some (c.toNat - 'a'.toNat + 10)
  else if 'A' ≤ c ∧ c ≤ 'F' then some (c.toNat - 'A'.toNat + 10)
  else none

/-- The number the digits write in `base`, after the digits of value `acc`. -/
def digitsFrom (digit : Char → Option Nat) (base acc : Nat) : Token → Option Nat
  | [] => some acc
  | c :: rest =>
    match digit c with
    | some d => digitsFrom digit base (acc * base + d) rest
    | none => none

/-- One or more digits. -/
def digits (digit : Char → Option Nat) (base : Nat) (t : Token) : Option Nat :=
  if t.isEmpty then none else digitsFrom digit base 0 t

/-- An unsigned integer token: a decimal or `0x`-hex literal (R109). Only a lower-case `x` begins a hex literal (DESIGN
CHOICE, log 17). -/
def natToken (t : Token) : Option Nat :=
  match t with
  | '0' :: 'x' :: rest => digits hexDigit 16 rest
  | _ => digits decDigit 10 t

/-- An integer token of a signed operand: a leading minus sign makes a decimal literal negative (log 17). -/
def intToken (t : Token) : Option Int :=
  match t with
  | '-' :: rest => (digits decDigit 10 rest).map fun n => -(n : Int)
  | _ => (natToken t).map fun n => (n : Int)

/-- The characters before the first point, and those after it if there is one. -/
def splitPoint : Token → Token × Option Token
  | [] => ([], none)
  | '.' :: rest => ([], some rest)
  | c :: rest => (c :: (splitPoint rest).1, (splitPoint rest).2)

/-- An unsigned decimal literal `digits[.digits]` as the exact rational it denotes (R109). -/
def decimalToken (t : Token) : Option Rat :=
  match splitPoint t with
  | (whole, none) => (digits decDigit 10 whole).map fun n => (n : Rat)
  | (whole, some frac) =>
    match digits decDigit 10 whole, digits decDigit 10 frac with
    | some n, some f => some ((n : Rat) + (f : Rat) / ((10 ^ frac.length : Nat) : Rat))
    | _, _ => none

/-- A voltage token `[-]digits[.digits]` (R109). -/
def voltToken (t : Token) : Option Volts :=
  match t with
  | '-' :: rest => (decimalToken rest).map fun v => -v
  | _ => decimalToken t

/-! ### Operands (R101, R107) -/

/-- An unsigned token below `bound`. -/
def boundedToken (bound : Nat) (t : Token) : Option Nat :=
  match natToken t with
  | some n => if n < bound then some n else none
  | none => none

/-- A `u<w>` operand, or a mask of `w` bits (R107: bit i of the integer is element i). -/
def wordToken (w : Nat) (t : Token) : Option (BitVec w) := (boundedToken (2 ^ w) t).map (BitVec.ofNat w)

/-- A mask: "one decimal integer whose bit i is element i" (R107). -/
def maskToken (w : Nat) (t : Token) : Option (BitVec w) :=
  match digits decDigit 10 t with
  | some n => if n < 2 ^ w then some (BitVec.ofNat w n) else none
  | none => none

/-- An `s32` operand. -/
def s32Token (t : Token) : Option (BitVec 32) :=
  match intToken t with
  | some n => if -(2 ^ 31) ≤ n ∧ n < 2 ^ 31 then some (BitVec.ofInt 32 n) else none
  | none => none

/-- A `u2` operand. -/
def dacChanToken (t : Token) : Option DacChan := (wordToken 2 t).map BitVec.toFin

/-- A `u4` operand. -/
def adcChanToken (t : Token) : Option AdcChan := (wordToken 4 t).map BitVec.toFin

/-- A bool: `0` or `1` (R107). -/
def boolToken (t : Token) : Option Bool :=
  match t with
  | ['0'] => some false
  | ['1'] => some true
  | _ => none

/-- Three byte tokens. -/
def bytes3Tokens (t0 t1 t2 : Token) : Option Bytes3 := do
  return ⟨← wordToken 8 t0, ← wordToken 8 t1, ← wordToken 8 t2⟩

/-- A `Q[4]` operand: four tokens (R107). -/
def volts4Tokens (t0 t1 t2 t3 : Token) : Option (Vector Volts 4) := do
  return #v[← voltToken t0, ← voltToken t1, ← voltToken t2, ← voltToken t3]

/-- A plan: the mask, four initial and four final voltages, the step count, the delay and the ADC mask (R101). -/
def planTokens (ts : List Token) : Option Plan :=
  match ts with
  | [mask, i0, i1, i2, i3, f0, f1, f2, f3, count, delay, adcMask] => do
    return ⟨← maskToken 4 mask, ← volts4Tokens i0 i1 i2 i3, ← volts4Tokens f0 f1 f2 f3, ← wordToken 32 count,
      ← wordToken 32 delay, ← maskToken 16 adcMask⟩
  | _ => none

/-- The operands of the two channel-configuration operations, given to `op`. -/
def channelConfigTokens (op : AdcChan → BitVec 32 → BitVec 32 → BitVec 32 → BitVec 32 → Instr)
    (ts : List Token) : Option Instr :=
  match ts with
  | [c, state, setup, p, n] => do
    return op (← adcChanToken c) (← s32Token state) (← s32Token setup) (← s32Token p) (← s32Token n)
  | _ => none

/-! ### Commands -/

/-- Is the token this word? -/
def Token.is (t : Token) (word : String) : Bool := t == word.toList

/-- An operation without operands. -/
def noOperands (i : Instr) (ts : List Token) : Option Instr := if ts.isEmpty then some i else none

/-- An operation with a `bytes3` operand. -/
def bytes3Operand (op : Bytes3 → Instr) (ts : List Token) : Option Instr :=
  match ts with
  | [t0, t1, t2] => (bytes3Tokens t0 t1 t2).map op
  | _ => none

/-- An operation with one operand. -/
def oneOperand {α : Type} (token : Token → Option α) (op : α → Instr) (ts : List Token) : Option Instr :=
  match ts with
  | [t] => (token t).map op
  | _ => none

/-- The command's operation: the mnemonics of R100 and the two pseudo-instructions of R108, `DACWRITE` for
`DAC_SET_VOLTAGE` with `updateOutputs` true and `GET_DAC` for `DAC_READ_VOLTAGE`.

DESIGN CHOICE (log 17): R109 refuses a line for a token that is no literal of its operand's type, and neither rule speaks
of a mnemonic that is none of these, letter for letter, or of too few or too many operand tokens. Such a line is refused
too. -/
def command (name : Token) (ts : List Token) : Option Instr :=
  if name.is "DACWRITE" then
    match ts with
    | [c, v] => do return .dacSetVoltage (← dacChanToken c) (← voltToken v) true
    | _ => none
  else if name.is "GET_DAC" then oneOperand dacChanToken .dacReadVoltage ts
  else if name.is "BUILD_FRAME" then
    match ts with
    | size :: count :: data => do
      return .buildFrame (← wordToken 32 size) (← wordToken 32 count) (← data.mapM (wordToken 8))
    | _ => none
  else if name.is "ADC_CFG_ENCODE" then channelConfigTokens .adcCfgEncode ts
  else if name.is "ADC_CFG_DECODE" then bytes3Operand .adcCfgDecode ts
  else if name.is "ADC_DISABLE_ALL_ENCODE" then noOperands .adcDisableAllEncode ts
  else if name.is "DAC_V2C" then oneOperand voltToken .dacV2c ts
  else if name.is "DAC_C2V" then oneOperand (wordToken 20) .dacC2v ts
  else if name.is "DAC_WRITE_ENCODE" then oneOperand (wordToken 20) .dacWriteEncode ts
  else if name.is "DAC_READ_DECODE" then bytes3Operand .dacReadDecode ts
  else if name.is "ADC_CODE_DECODE" then bytes3Operand .adcCodeDecode ts
  else if name.is "ADC_CONFIGURE_CHANNEL" then channelConfigTokens .adcConfigureChannel ts
  else if name.is "ADC_DISABLE_ALL" then noOperands .adcDisableAll ts
  else if name.is "ADC_SELECT_MODE" then noOperands .adcSelectMode ts
  else if name.is "ADC_WAIT_DRDY" then noOperands .adcWaitDrdy ts
  else if name.is "ADC_READ_CHANNEL" then oneOperand adcChanToken .adcReadChannel ts
  else if name.is "ADC_FULL_READING" then noOperands .adcFullReading ts
  else if name.is "DAC_INIT_ALL" then noOperands .dacInitAll ts
  else if name.is "DAC_SET_VOLTAGE" then
    match ts with
    | [c, v, update] => do return .dacSetVoltage (← dacChanToken c) (← voltToken v) (← boolToken update)
    | _ => none
  else if name.is "DAC_READ_VOLTAGE" then oneOperand dacChanToken .dacReadVoltage ts
  else if name.is "DAC_READ_REGISTER" then oneOperand dacChanToken .dacReadRegister ts
  else if name.is "DAC_UPDATE_OUTPUTS" then noOperands .dacUpdateOutputs ts
  else if name.is "RAMP_PLAN" then (planTokens ts).map .rampPlan
  else if name.is "RAMP_PRIME" then
    match ts with
    | [mask, i0, i1, i2, i3] => do return .rampPrime (← maskToken 4 mask) (← volts4Tokens i0 i1 i2 i3)
    | _ => none
  else if name.is "RAMP_SIMPLE" then (planTokens ts).map .rampSimple
  else if name.is "RAMP_BUFFERED" then (planTokens ts).map .rampBuffered
  else if name.is "READ_STATUS" then noOperands .readStatus ts
  else none

/-- The instruction a command line stands for, none where the line is refused (R107, R109). -/
def assembleLine (line : List Char) : Option Instr :=
  match tokenize line with
  | name :: ts => command name ts
  | [] => none

/-- The descriptor the host issues for a command line (R99, R107). -/
def assemble (line : List Char) : Option Descriptor := (assembleLine line).map (encode Config.board)

end Sys2Proof.Machine
end

