-- ==== Sys2Proof/Safety.lean ====
section
/-!
DEFINITION. What counts as a good state and a good run, in the terms the statements use: an operation run event by
event, the points an operation can rest at, the invariant of the machine, and counts of events.
-/

namespace Sys2Proof.Machine

/-! ### Runs of one operation -/

/-- The operation `i` run for `n` steps, one event each, with no signal from the host between them. -/
def execs (i : Instr) : Nat → State → Outcome
  | 0, s => .next s
  | n + 1, s =>
    match exec i s with
    | .next t => execs i n t
    | .fault r => .fault r
    | .refused r => .refused r

/-- The block is between operations (10 R21). -/
def State.IsIdle (s : State) : Prop := s.seqpos = .idle

/-- The host's next asynchronous move, if any, is not reset. -/
def State.NoReset (s : State) : Prop := s.signals.head? ≠ some .reset

/-- The host makes no asynchronous move before the next step. -/
def State.Quiet (s : State) : Prop := s.signals = []

/-- A run is safe when no step of it ends in a fault. -/
def State.Safe (s : State) : Prop := ∀ r, step s ≠ .fault r

/-- The host of 20 R77: every descriptor it will issue can be written at the interface, and none is a bare wire
frame. -/
def State.HostObeys (s : State) : Prop :=
  ∀ d ∈ s.hostQueue, ∃ opcode operands fits, d = .op opcode operands fits ∧
    ∀ i, decodeOp opcode operands = some i → i.WellFormed = true

/-! ### Where an operation can rest -/

/-- The registers of a ramp between two events: the deltas of its plan, and no error but an overrange (46 R239). -/
def RampRegs.Fits (plan : Plan) (regs : RampRegs) : Prop :=
  rampDeltas plan = some regs.dv ∧ (regs.rampErr = .none ∨ regs.rampErr = .voltageOverrange)

/-- The registers of `RAMP_PRIME`, which has no plan (46 R233). -/
def RampRegs.FitsPrime (regs : RampRegs) : Prop :=
  regs.rampErr = .none ∨ regs.rampErr = .voltageOverrange

/-- The points of priming (46 R232), with a condition on the ramp registers. -/
def Point.InPriming (ok : RampRegs → Prop) : Point → Prop
  | .primeWrote regs _ | .primeLowered regs _ | .primeNext regs _ => ok regs
  | _ => False

/-- The points of a step (46 R234), its sleep included. -/
def Point.InStep (ok : RampRegs → Prop) : Point → Prop
  | .stepNext regs _ | .stepLowered regs | .stepRaised regs | .slept regs => ok regs
  | _ => False

/-- Who takes the pass. -/
def Pass.IsReading : Pass → Prop
  | .reading _ => True
  | .ramp .. => False

/-- The pass of a ramp, with a condition on the ramp registers. -/
def Pass.IsRamp (ok : RampRegs → Prop) : Pass → Prop
  | .reading _ => False
  | .ramp regs _ => ok regs

/-- The points of a full reading (44 R197), with a condition on who takes it. A capture record is a ramp's. -/
def Point.InPass (ok : Pass → Prop) : Point → Prop
  | .passNext pass _ | .passPolling pass _ _ _ | .passReady pass _ _ | .passTimedOut pass => ok pass
  | .passCaptured regs p _ code voltage _ => ok (.ramp regs p) ∧ voltage = adcCodeToVoltage code
  | _ => False

/-- The points at which an operation can rest between two of its events (10 R21). An operation without events, and
a wire frame, never rests. -/
def RestsAt (i : Instr) (p : Point) : Prop :=
  match i with
  | .adcConfigureChannel channel state setup q n =>
    p = .finish .none (.bytes3 (pack channel state.toInt setup.toInt q.toInt n.toInt)) ∧
    validate state.toInt setup.toInt q.toInt n.toInt = .none
  | .adcDisableAll | .adcSelectMode => p = .finish .none .unit
  | .adcWaitDrdy => (∃ polls, p = .polling polls) ∨ p = .waitTimedOut ∨ p = .finish .none .unit
  | .adcReadChannel _ => ∃ code, p = .captured code (adcCodeToVoltage code)
  | .adcFullReading => p.InPass Pass.IsReading
  | .dacInitAll => ∃ todo, p = .initNext todo
  | .dacSetVoltage _ _ updateOutputs =>
    ∃ code, (updateOutputs = true ∧ (p = .wrote code ∨ p = .lowered code)) ∨
      p = .finish .none (.volts (codeToVoltage code))
  | .dacReadVoltage _ => p = .readRequested ∨ ∃ code, p = .finish .none (.volts (codeToVoltage code))
  | .dacReadRegister _ => p = .readRequested ∨ ∃ code, p = .finish .none (.code code)
  | .dacUpdateOutputs => p = .pulseLow ∨ p = .finish .none .unit
  | .rampPrime _ _ => p.InPriming RampRegs.FitsPrime
  | .rampSimple plan => p.InPriming (RampRegs.Fits plan) ∨ p.InStep (RampRegs.Fits plan)
  | .rampBuffered plan =>
    p.InPriming (RampRegs.Fits plan) ∨ p.InStep (RampRegs.Fits plan) ∨ p.InPass (Pass.IsRamp (RampRegs.Fits plan))
  | .buildFrame .. | .adcCfgEncode .. | .adcCfgDecode _ | .adcDisableAllEncode | .dacV2c _ | .dacC2v _ => False
  | .dacWriteEncode _ | .dacReadDecode _ | .adcCodeDecode _ | .rampPlan _ | .readStatus => False
  | .wireAdcChcfg .. | .wireAdcDisableAll | .wireAdcMode | .wireAdcDataRead | .wireDacWrite .. => False
  | .wireDacReadRequest _ | .wireDacReadNull _ | .wireDacInit _ | .wirePoison => False

/-- The level of the latch line at a point: low inside a pulse, else high (10 R32, 45 R213). -/
def Point.latch : Point → Level
  | .lowered _ | .pulseLow | .primeLowered .. | .stepLowered _ => .low
  | _ => .high

/-- The AdcDriver states possible at a point (44 R199, log 7). -/
def Point.AdcStateOk (p : Point) (a : AdcState) : Prop :=
  match p with
  | .captured .. | .passCaptured .. => a = .dataCaptured
  | .passNext .. => a = .modeSelected ∨ a = .dataCaptured
  | .polling _ | .waitTimedOut | .passPolling .. | .passReady .. | .passTimedOut _ => a = .awaitingDataReady
  | .start | .finish .. | .initNext _ | .wrote _ | .lowered _ | .pulseLow | .readRequested | .primeWrote ..
  | .primeLowered .. | .primeNext .. | .stepNext .. | .stepLowered _ | .stepRaised _ | .slept _ => a ≠ .dataCaptured

/-- The RampSequencer state while operation `i` rests at `p` (46 R238, log 7). -/
def RampStateOk (i : Instr) (p : Point) (r : RampState) : Prop :=
  match i, p with
  | .rampSimple _, .primeWrote .. | .rampSimple _, .primeLowered .. | .rampSimple _, .primeNext .. => r = .configured
  | .rampSimple _, _ => r = .steppingWithoutCapture
  | .rampBuffered _, .primeWrote .. | .rampBuffered _, .primeLowered .. | .rampBuffered _, .primeNext .. =>
    r = .configured
  | .rampBuffered _, _ => r = .steppingWithCapture
  | _, _ => r = .idle ∨ r = .complete

/-! ### The invariant -/

/-- What the sequencer position says of the state: between operations the latch is high, the ramp is idle or
complete and no ADC result is half filed (10 R25, R32, 46 R238); inside an operation the position is one of its
points; inside the reset sequence the latch is driven by its second event (70 R292). -/
def State.PositionOk (s : State) : Prop :=
  match s.seqpos with
  | .idle => s.latchLevel = some .high ∧ (s.rampState = .idle ∨ s.rampState = .complete) ∧ s.adcState ≠ .dataCaptured
  | .busy i k p =>
    1 ≤ k ∧ RestsAt i p ∧ s.latchLevel = some p.latch ∧ p.AdcStateOk s.adcState ∧ RampStateOk i p s.rampState
  | .resetting n =>
    n ≤ 2 ∧ s.latchLevel = (if n = 2 then some .high else none) ∧ s.rampState = .idle ∧ s.adcState = .idle

/-- The invariant of the machine. -/
structure State.Inv (s : State) : Prop where
  /-- 10 R21, R25, R32, 44 R199, 46 R238, log 7. -/
  position : s.PositionOk
  /-- Codes 11 to 15 of `LAST_ERR` are never written (60 R260). -/
  lastErr : s.lastErr.toNat ≤ 10
  /-- The voltage of a channel is that of its code (10 R24). -/
  adcVoltage : ∀ i : AdcChan, s.adcVoltage[i] = s.adcCode[i].map adcCodeToVoltage
  /-- The read-back voltage of a channel is that of its read-back code (10 R26, 45 R215, log 7). -/
  readVoltage : ∀ c : DacChan, s.dac[c].lastReadVoltage = s.dac[c].lastReadCode.map codeToVoltage
  /-- The constants of a DAC channel's record are the parameters (10 R26). -/
  constants : ∀ c : DacChan, s.dac[c].syncLine = .sync c ∧ s.dac[c].ge = s.cfg.ge[c] ∧ s.dac[c].os = s.cfg.os[c]
  /-- `cancelReq` is hardwired to 0 without cancel support (10 R30). -/
  cancel : s.cfg.cancelSupported = false → s.cancelReq = false

/-! ### The opcode map (30 R100) -/

/-- The opcodes of the map: every other value is illegal (R105). -/
def legalOpcodes : List Byte :=
  [0x01, 0x02, 0x03, 0x04, 0x05, 0x06, 0x07, 0x08, 0x09, 0x10, 0x11, 0x12, 0x13, 0x14, 0x15, 0x20, 0x21, 0x22, 0x23,
   0x24, 0x30, 0x31, 0x32, 0x33, 0x40]

/-! ### The rules in a second form, for statements -/

/-- R150: the pairs accepted. -/
def PairAccepted (p n : Int) : Prop :=
  n = 16 ∨ ∃ k : Nat, k < 8 ∧ ((p = 2 * k ∧ n = 2 * k + 1) ∨ (p = 2 * k + 1 ∧ n = 2 * k))

/-- The five validation errors in the priority of 60 R264; the fifth check of 42 R151 cannot fail (42 R156). -/
def ConfigError (state setup p n : Int) (e : Err) : Prop :=
  (e = .invalidState ∧ ¬(state = 0 ∨ state = 1)) ∨
  (e = .invalidSetup ∧ (state = 0 ∨ state = 1) ∧ ¬(0 ≤ setup ∧ setup ≤ 7)) ∨
  (e = .invalidInputPair ∧ (state = 0 ∨ state = 1) ∧ (0 ≤ setup ∧ setup ≤ 7) ∧ ¬PairAccepted p n) ∨
  (e = .invalidInput1 ∧ (state = 0 ∨ state = 1) ∧ (0 ≤ setup ∧ setup ≤ 7) ∧ PairAccepted p n ∧ ¬(0 ≤ p ∧ p ≤ 15))

/-- A channel configuration that every check passes. -/
def ConfigValid (state setup p n : Int) : Prop :=
  (state = 0 ∨ state = 1) ∧ (0 ≤ setup ∧ setup ≤ 7) ∧ PairAccepted p n ∧ (0 ≤ p ∧ p ≤ 15)

/-- The bytes of a CHCFG frame by the table of 30 R91, as sums. -/
def chcfgBytes (channel : AdcChan) (state setup p n : Nat) : Bytes3 :=
  ⟨BitVec.ofNat 8 (0x10 + channel.val), BitVec.ofNat 8 (state * 128 + setup * 16 + p / 8),
    BitVec.ofNat 8 (p % 8 * 32 + n)⟩

/-- The bytes of a DAC write frame by the table of 30 R95, as sums. -/
def dacWriteBytes (nibble : BitVec 4) (code : DacCode) : Bytes3 :=
  ⟨BitVec.ofNat 8 (nibble.toNat * 16 + code.toNat / 65536), BitVec.ofNat 8 (code.toNat / 256),
    BitVec.ofNat 8 code.toNat⟩

/-! ### Operations as one big step, for refinement statements -/

/-- The latch pulse (45 R213). -/
def bigPulse (s : State) : State := (s.setLatch .low).setLatch .high

/-- `setVoltage(c, v, pulse)` for a voltage in range; nothing for one out of range (45 R211, 46 R239). -/
def bigSetVoltage (pulse : Bool) (s : State) (c : DacChan) (v : Volts) : State :=
  if overrange v then s
  else if pulse then bigPulse (s.writeDac c (codeOfVolts s.cfg.rounding v))
  else s.writeDac c (codeOfVolts s.cfg.rounding v)

/-- `prime` over the channels (46 R232). -/
def bigPrime (vInitial : Vector Volts 4) (chans : List DacChan) (s : State) : State :=
  chans.foldl (fun s c => bigSetVoltage true s c vInitial[c]) s

/-- The voltage of step `k` on an active channel, from the plan alone (46 R230, R234). -/
def planVoltage (plan : Plan) (k : Nat) (c : DacChan) : Volts :=
  plan.vInitial[c] + (k : Rat) * ((plan.vFinal[c] - plan.vInitial[c]) / (plan.stepCount.toNat : Rat))

/-- `step(k)`: the writes, the pulse, `RAMP_STEPS_DONE`, the sleep (46 R234). -/
def bigStep (plan : Plan) (k : Nat) (s : State) : State :=
  ({ bigPulse ((dacChansOf plan.activeDacMask).foldl
      (fun s c => bigSetVoltage false s c (planVoltage plan k c)) s) with
      rampStepsDone := BitVec.ofNat 32 k }).sleep plan.stepDelay

/-- Steps 1 to `n` (46 R236). -/
def bigSteps (plan : Plan) : Nat → State → State
  | 0, s => s
  | n + 1, s => bigStep plan (n + 1) (bigSteps plan n s)

/-- The waits of a pass, in order: a channel, and how many polls of its wait read high before the one that reads
low. -/
abbrev Waits := List (AdcChan × Nat)

/-- The waits are those of a pass over these channels, and no wait reaches the timeout (44 R193). -/
def WaitsEnd (cfg : Config) (chans : List AdcChan) (waits : Waits) : Prop :=
  waits.map Prod.fst = chans ∧ ∀ limit, cfg.drdyTimeoutPolls = some limit → ∀ w ∈ waits, w.2 < limit

/-- The levels the polls of the waits read. -/
def levelsOf (waits : Waits) : List Level := waits.flatMap fun w => List.replicate w.2 .high ++ [.low]

/-- One wait whose polls read high `highs` times and then low (44 R193). -/
def bigWait (highs : Nat) (s : State) : State :=
  State.pollDrdy^[highs + 1] { s with adcState := .awaitingDataReady }

/-- The readings of a pass with these waits, and the state after the last (44 R197). -/
def bigReadings : Waits → State → List Reading × State
  | [], s => ([], s)
  | (c, highs) :: rest, s =>
    let u := bigWait highs s
    let (later, t) := bigReadings rest (u.readChannel c)
    (⟨c, u.nextAdcCode, adcCodeToVoltage u.nextAdcCode⟩ :: later, t)

/-- One wait of pass `pass`, its reading and its capture record (44 R197, 46 R240). -/
def bigCapture (pass : Nat) (s : State) (wait : AdcChan × Nat) : State :=
  let u := bigWait wait.2 s
  (u.readChannel wait.1).emit ⟨pass, wait.1, u.nextAdcCode, adcCodeToVoltage u.nextAdcCode⟩

/-- A pass with these waits, with a capture record after each reading (44 R197, 46 R240). -/
def bigPass (pass : Nat) (waits : Waits) (s : State) : State :=
  { waits.foldl (bigCapture pass) s.sendMode with adcState := .idle }

/-- Steps 1 to `n` of a buffered ramp, each with its pass; pass `k` has the waits `waits k` (46 R237). -/
def bigCaptureSteps (plan : Plan) (waits : Nat → Waits) : Nat → State → State
  | 0, s => s
  | n + 1, s =>
    (bigPass (n + 1) (waits (n + 1)) (bigStep plan (n + 1) (bigCaptureSteps plan waits n s))).countPass (n + 1)

/-- The levels the polls of passes 0 to `n` read. -/
def levelsOfPasses (waits : Nat → Waits) (n : Nat) : List Level :=
  (List.range (n + 1)).flatMap fun k => levelsOf (waits k)

/-- Was some voltage of priming, or of a step up to `n`, out of range on an active channel (46 R239)? -/
def RampOverrange (plan : Plan) (n : Nat) : Prop :=
  ∃ c ∈ dacChansOf plan.activeDacMask,
    overrange plan.vInitial[c] = true ∨ ∃ k, 1 ≤ k ∧ k ≤ n ∧ overrange (planVoltage plan k c) = true

/-- The error a ramp that no timeout aborts reports (46 R239, 60 R264). -/
def IsRampErr (plan : Plan) (n : Nat) (e : Err) : Prop :=
  (RampOverrange plan n ∧ e = .voltageOverrange) ∨ (¬RampOverrange plan n ∧ e = .none)

/-! ### Comparing steps from two states -/

/-- Two outcomes agree on what `view` shows of a next state, and stop for the same reason. -/
def OutcomesAgree (view : State → State) (a b : Outcome) : Prop :=
  match a, b with
  | .next t, .next u => view t = view u
  | .fault r, .fault q => r = q
  | .refused r, .refused q => r = q
  | _, _ => False

/-- The state without the chips. -/
def State.withoutChips (s : State) : State := { s with chips := RefChips.powerUp }

/-- The state without the calibration factors `GE` and `OS`. -/
def State.withoutCalibration (s : State) : State :=
  { s with
    cfg := { s.cfg with ge := Vector.replicate 4 0, os := Vector.replicate 4 0 }
    dac := s.dac.map fun d => { d with ge := 0, os := 0 } }

/-- The state without `adcState`. -/
def State.withoutAdcState (s : State) : State := { s with adcState := .idle }

/-! ### Counting events (46 R241) -/

/-- A transfer on a DAC select line. -/
def Event.isDacTransfer : Event → Bool
  | .transfer (.sync _) _ _ _ => true
  | .transfer .adcSelect _ _ _ | .setLevel .. | .readLevel .. | .setDirection .. | .sleep _ | .emit _ | .complete .. => false

/-- A transfer on the ADC select line. -/
def Event.isAdcTransfer : Event → Bool
  | .transfer .adcSelect _ _ _ => true
  | .transfer (.sync _) _ _ _ | .setLevel .. | .readLevel .. | .setDirection .. | .sleep _ | .emit _ | .complete .. => false

/-- The latch line is driven to `lvl`. -/
def Event.isLatch (lvl : Level) : Event → Bool
  | .setLevel .latch l => l == lvl
  | .setLevel .drdy _ | .transfer .. | .readLevel .. | .setDirection .. | .sleep _ | .emit _ | .complete .. => false

/-- A sleep. -/
def Event.isSleep : Event → Bool
  | .sleep _ => true
  | .transfer .. | .setLevel .. | .readLevel .. | .setDirection .. | .emit _ | .complete .. => false

/-- A capture record. -/
def Event.isEmit : Event → Bool
  | .emit _ => true
  | .transfer .. | .setLevel .. | .readLevel .. | .setDirection .. | .sleep _ | .complete .. => false

/-- The end of an operation. -/
def Event.isComplete : Event → Bool
  | .complete .. => true
  | .transfer .. | .setLevel .. | .readLevel .. | .setDirection .. | .sleep _ | .emit _ => false

end Sys2Proof.Machine
end

