-- ==== Sys2Proof/Certificates/Slice0/Obligations.lean ====
section
/-!
DEFINITION. The statements for the provers, in the order of OBLIGATIONS.json. An instruction's result is stated as
the equation of its next states: everything the equation does not name is unchanged, so it is the frame too.
-/

section

open Sys2Proof Sys2Proof.Machine

/-! ### Environment, reset, the step -/

/-- R66 (20): every answer of the right length and every level can be the next one, and an answer always has the
length of the frame. How the model holds the answers is its own choice (log 3). -/
def Obligations.EnvironmentAnswersAreFree : Prop :=
  (∀ (s : State) (rx : List Byte), ({ s with rxAnswers := rx :: s.rxAnswers } : State).rxFor rx.length = rx) ∧
  (∀ (s : State) (lvl : Level), ({ s with levelAnswers := lvl :: s.levelAnswers } : State).levelNow = lvl) ∧
  ∀ (s : State) (n : Nat), (s.rxFor n).length = n

/-- R33 (10): the reset value of every field of the block. -/
def Obligations.ResetLeavesSpecValues : Prop :=
  State.reset.seqpos = .idle ∧
  (∀ i : AdcChan, State.reset.enabled[i] = false ∧ State.reset.adcCode[i] = none ∧
    State.reset.adcVoltage[i] = none) ∧
  State.reset.adcState = .idle ∧
  (∀ c : DacChan, State.reset.dac[c].lastCode = none ∧ State.reset.dac[c].lastReadCode = none ∧
    State.reset.dac[c].lastReadVoltage = none ∧ State.reset.dac[c].syncLine = .sync c ∧
    State.reset.dac[c].ge = State.reset.cfg.ge[c] ∧ State.reset.dac[c].os = State.reset.cfg.os[c]) ∧
  State.reset.lastErr = 0 ∧ State.reset.rampState = .idle ∧ State.reset.cancelReq = false ∧
  State.reset.rampStepsDone = 0 ∧ State.reset.rampCancelled = false ∧ State.reset.rampPasses = 0 ∧
  State.reset.latchLevel = some .high

/-- R290, R292 (70): reset asserted at any position abandons the operation with no `Complete`, puts every field of
R33 at its reset value and makes exactly three events, one a step. The parameters, the log, the inputs and the
chips stay (R291), but that a rising latch ends a pulse it finds begun (log 15). -/
def Obligations.ResetFromAnyStateMakesThreeEvents : Prop :=
  ∀ s : State, s.signals = [.reset] →
    ∃ t₁ t₂, step s = .next t₁ ∧ step t₁ = .next t₂ ∧
      step t₂ = .next { s with
        seqpos := .idle
        enabled := Vector.replicate 16 false
        adcCode := Vector.replicate 16 none
        adcVoltage := Vector.replicate 16 none
        adcState := .idle
        dac := #v[.reset s.cfg 0, .reset s.cfg 1, .reset s.cfg 2, .reset s.cfg 3]
        lastErr := 0
        rampState := .idle
        cancelReq := false
        rampStepsDone := 0
        rampCancelled := false
        rampPasses := 0
        latchLevel := some .high
        signals := []
        log := .setDirection .drdy .input :: .setLevel .latch .high :: .setDirection .latch .output :: s.log
        chips := s.chips.observe s.cfg (.setLevel .latch .high) }

/-- The invariant holds after reset. -/
def Obligations.ResetHasInvariant : Prop := State.reset.Inv

/-- Every step keeps the invariant, from every state that has it (10 R21, R24 to R26, R30, R32; 44 R199; 46 R238;
60 R260). Which value `adcState`, `rampState` and `lastReadVoltage` have between two events of one operation is log 7: in
which event's step a write falls is read from 00 R15 and 44 R199 by inference, and is the model's choice for
`lastReadVoltage`. -/
def Obligations.StepKeepsInvariant : Prop := ∀ s t : State, s.Inv → step s = .next t → t.Inv

/-- 00 R15, 20 R77, 60 R263: from every state of the invariant no step faults, and when the host issues only what
can be written at the interface the next step exists and leaves such a host. -/
def Obligations.ObedientHostIsNeverStopped : Prop :=
  ∀ s : State, s.Inv →
    (∀ r, step s ≠ .fault r) ∧ (s.HostObeys → ∃ t, step s = .next t ∧ t.HostObeys)

/-- A step runs the instruction that the next descriptor decodes to, on the state with that descriptor taken; an
operation in progress goes on; an idle block with nothing issued waits (log 2), and one given bytes that are no frame of
the kind they are sent as refuses them (30 R90 to R98; log 13); a signal of the host takes effect before the step
(log 11), but that without cancel support the host's write is ignored and the bit reads 0 (10 R30). -/
def Obligations.StepRunsDecodedInstruction : Prop :=
  (∀ (s : State) (d : Descriptor) (rest : List Descriptor) (i : Instr), s.IsIdle → s.Quiet →
    s.hostQueue = d :: rest → decode s.cfg d = .instr i → step s = exec i { s with hostQueue := rest }) ∧
  (∀ (s : State) (i : Instr) (k : Nat) (p : Point), s.Quiet → s.seqpos = .busy i k p → step s = exec i s) ∧
  (∀ s : State, s.IsIdle → s.Quiet → s.hostQueue = [] → step s = .next s) ∧
  (∀ (s : State) (d : Descriptor) (rest : List Descriptor), s.IsIdle → s.Quiet → s.hostQueue = d :: rest →
    decode s.cfg d = .unknownFrame → step s = .refused .unknownFrame) ∧
  (∀ (s : State) (rest : List HostSignal), s.signals = .quiet :: rest → step s = stepNow { s with signals := rest }) ∧
  (∀ (s : State) (rest : List HostSignal), s.signals = .cancel :: rest → s.cfg.cancelSupported = true →
    step s = stepNow { s with signals := rest, cancelReq := true }) ∧
  ∀ s : State, s.cfg.cancelSupported = false → s.cancelBit = false ∧
    ∀ rest, s.signals = .cancel :: rest → step s = stepNow { s with signals := rest }

/-- R27 (10): a `Complete` writes its code to `LAST_ERR` and ends the operation; no other event writes it; and a
step makes at most one event, which the chips see. -/
def Obligations.LastErrIsWrittenByCompleteOnly : Prop :=
  ∀ s t : State, s.NoReset → step s = .next t →
    (t.log = s.log ∧ t.lastErr = s.lastErr ∧ t.chips = s.chips) ∨
    ∃ e, t.log = e :: s.log ∧ t.chips = s.chips.observe s.cfg e ∧
      ((∃ err v, e = .complete err v ∧ t.lastErr = err.code ∧ t.seqpos = .idle) ∨
       (e.isComplete = false ∧ t.lastErr = s.lastErr))

/-- 10 R21, 20 R76: an operation that does not complete stays the operation in progress, with its operands, and its
event count is one more. -/
def Obligations.SequencerCountsEvents : Prop :=
  ∀ (i : Instr) (s t : State), exec i s = .next t →
    t.seqpos = .idle ∨
    (s.IsIdle ∧ ∃ p, t.seqpos = .busy i 1 p) ∨
    ∃ k p q, s.seqpos = .busy i k p ∧ t.seqpos = .busy i (k + 1) q

/-- R105 (30): an illegal opcode performs no event but its `Complete` and changes no state but `LAST_ERR`. -/
def Obligations.IllegalOpcodeCompletesAtOnce : Prop :=
  ∀ (s : State) (opcode : Byte) (operands : Operands) (fits : operands.fits opcode = true) (rest : List Descriptor),
    s.IsIdle → s.Quiet → s.hostQueue = .op opcode operands fits :: rest → opcode ∉ legalOpcodes →
    step s = .next { s with
      hostQueue := rest, lastErr := 10, log := .complete .illegalOperation .unit :: s.log }

/-! ### Encoding -/

/-- Words written out from the encodings of 30 R91, R95 and R100, and a CHCFG frame R103 says is never written. A
frame's kind is the one it is sent as, never told from its bytes (R90); that a frame can be issued alone, with its kind
beside it, is the model's choice (log 13). The decoding of these words uses no reading of a kind from bytes, which is
left to the words of the opcode table (log 25). -/
def Obligations.DecodeKnownWords : Prop :=
  ∀ cfg : Config,
    decode cfg (.frame .adcChcfg .adcSelect [0b00010011#8, 0b10000000#8, 0b01000011#8]) =
      .instr (.wireAdcChcfg 3 true 0 2 3) ∧
    decode cfg (.frame .adcChcfg .adcSelect [0b00011111#8, 0b01110001#8, 0b11110000#8]) =
      .instr (.wireAdcChcfg 15 false 7 15 16) ∧
    decode cfg (.frame .adcChcfg .adcSelect [0b00010000#8, 0b10000010#8, 0b00000001#8]) = .unknownFrame ∧
    decode cfg (.frame .dacWrite (.sync 2) [cfg.dacWriteCtrl ||| 0x0C#8, 0xCC#8, 0xCD#8]) =
      .instr (.wireDacWrite 2 0xCCCCD#20) ∧
    decode cfg (.op 0x23#8 (.dacChannel 1) rfl) = .instr (.dacReadRegister 1) ∧
    decode cfg (.op 0x0A#8 .none rfl) = .illegalOpcode 0x0A#8

/-- The decoding of an encoded instruction is the instruction, with every operand at every value, for every choice
of the parameter frames, those that collide too, since a frame's kind is not told from its bytes (30 R90). That a wire
frame can be issued alone, with its kind beside it, is the model's choice (log 13). -/
def Obligations.DecodeEncodeAgree : Prop :=
  ∀ (cfg : Config) (i : Instr), decode cfg (encode cfg i) = .instr i

/-- An instruction encodes to every descriptor that decodes to it, so each has one descriptor: an operation its opcode
and record, a wire frame its kind, line and bytes. An operation descriptor has a meaning exactly when its opcode is in
the map, since no record of another shape can stand in it (30 R99 to R101). That a wire frame can be issued alone, with
its kind beside it, is the model's choice (log 13); no kind is read from bytes here (R90), only for the words of the
opcode table (log 25). -/
def Obligations.EncodeDecodeAgree : Prop :=
  (∀ (cfg : Config) (d : Descriptor) (i : Instr), decode cfg d = .instr i → encode cfg i = d) ∧
  ∀ (cfg : Config) (opcode : Byte) (operands : Operands) (fits : operands.fits opcode = true),
    (∃ i, decode cfg (.op opcode operands fits) = .instr i) ↔ opcode ∈ legalOpcodes

/-- 20 R60, R67: `MemWrite` stores its `n` bytes most significant first and no other byte, and `MemRead` reads back
the value. -/
def Obligations.MemWriteIsReadBack : Prop :=
  ∀ (frame : List Byte) (i n v : Nat), i + n ≤ frame.length →
    (memWrite frame i n v).length = frame.length ∧
    memRead (memWrite frame i n v) i n = v % 256 ^ n ∧
    (∀ j, j < n → (memWrite frame i n v)[i + j]? = some (BitVec.ofNat 8 (v / 256 ^ (n - 1 - j)))) ∧
    ∀ j, j < i ∨ i + n ≤ j → (memWrite frame i n v)[j]? = frame[j]?

/-- 30 R107, R108: the two pseudo-instructions expand to their operations. -/
def Obligations.PseudoInstructionsExpand : Prop :=
  (∀ c v : Token, command "DACWRITE".toList [c, v] = command "DAC_SET_VOLTAGE".toList [c, v, "1".toList]) ∧
  (∀ c : Token, command "GET_DAC".toList [c] = command "DAC_READ_VOLTAGE".toList [c]) ∧
  ∀ (c v : Token) (channel : DacChan) (volts : Volts), dacChanToken c = some channel → voltToken v = some volts →
    command "DACWRITE".toList [c, v] = some (.dacSetVoltage channel volts true) ∧
    command "GET_DAC".toList [c] = some (.dacReadVoltage channel)

/-! ### Frames and channel configurations -/

/-- R130 (41): `BUILD_FRAME`. -/
def Obligations.BuildFrameChecksCapacity : Prop :=
  ∀ (s : State) (size count : BitVec 32) (data : List Byte),
    decodeOp 0x01 (.frameSpec size count data) = some (.buildFrame size count data) ∧
    (¬(1 ≤ size.toNat ∧ 1 ≤ count.toNat ∧ data.length = size.toNat * count.toNat) →
      exec (.buildFrame size count data) s = .refused .illFormedDescriptor) ∧
    (s.IsIdle → 1 ≤ size.toNat → 1 ≤ count.toNat → data.length = size.toNat * count.toNat →
      exec (.buildFrame size count data) s = .next (
        if 64 < size.toNat * count.toNat then s.complete .frameCapacityExceeded .unit
        else s.complete .none (.frame ⟨size.toNat, count.toNat, data⟩)))

/-- R150 to R153 (42): `ADC_CFG_ENCODE` checks in order, reports the first failure with the error frame, and packs
a valid configuration as the table of 30 R91 says. -/
def Obligations.AdcCfgEncodeChecksInOrder : Prop :=
  ∀ (s : State) (ch : AdcChan) (state setup p n : BitVec 32), s.IsIdle →
    decodeOp 0x02 (.channelConfig ch state setup p n) = some (.adcCfgEncode ch state setup p n) ∧
    (∀ e, ConfigError state.toInt setup.toInt p.toInt n.toInt e →
      exec (.adcCfgEncode ch state setup p n) s = .next (s.complete e (.bytes3 ⟨0xFF, 0xFF, 0xFF⟩))) ∧
    (ConfigValid state.toInt setup.toInt p.toInt n.toInt →
      exec (.adcCfgEncode ch state setup p n) s = .next (s.complete .none
        (.bytes3 (chcfgBytes ch state.toInt.toNat setup.toInt.toNat p.toInt.toNat n.toInt.toNat))))

/-- R154 (42): `ADC_CFG_DECODE` is total, and `valid` marks exactly the frames `pack` can produce. That `channel` is
`b0 - 16` in an invalid record too, where R154 gives it no meaning, is the model's choice (log 27). -/
def Obligations.AdcCfgDecodeReadsFields : Prop :=
  ∀ (s : State) (f : Bytes3), s.IsIdle →
    decodeOp 0x03 (.bytes3 f) = some (.adcCfgDecode f) ∧
    ∃ c : ChannelConfig, exec (.adcCfgDecode f) s = .next (s.complete .none (.channelConfig c)) ∧
      c.channel = (f.b0.toNat : Int) - 16 ∧
      (c.enabled = true ↔ 128 ≤ f.b1.toNat) ∧
      c.setup.toNat = f.b1.toNat / 16 % 8 ∧
      c.inputPositive.toNat = f.b1.toNat % 4 * 8 + f.b2.toNat / 32 ∧
      c.inputNegative.toNat = f.b2.toNat % 32 ∧
      (c.valid = true ↔ 0x10 ≤ f.b0.toNat ∧ f.b0.toNat ≤ 0x1F ∧ f.b1.toNat / 4 % 4 = 0 ∧
        c.inputPositive.toNat ≤ 15 ∧ c.inputNegative.toNat ≤ 16 ∧
        PairAccepted c.inputPositive.toNat c.inputNegative.toNat) ∧
      (c.valid = true ↔ ∃ (ch : AdcChan) (state setup p n : Int), ConfigValid state setup p n ∧
        f = pack ch state setup p n)

/-- R155 (42): the disable-all frame. -/
def Obligations.AdcDisableAllEncodeIsConstant : Prop :=
  decodeOp 0x04 .none = some .adcDisableAllEncode ∧
  ∀ s : State, s.IsIdle →
    exec .adcDisableAllEncode s = .next (s.complete .none (.frame ⟨48, 1, disableAllPattern⟩))

/-- R156 (42): the four facts. -/
def Obligations.ConfigCodecFacts : Prop :=
  (∀ state setup p n : Int, validate state setup p n ≠ .invalidInput2) ∧
  (∀ state setup p n : Int, validate state setup p n = .invalidInput1 ↔
    (state = 0 ∨ state = 1) ∧ (0 ≤ setup ∧ setup ≤ 7) ∧ n = 16 ∧ ¬(0 ≤ p ∧ p ≤ 15)) ∧
  (∀ (s : State) (ch : AdcChan) (state setup p n : Int), s.IsIdle → validate state setup p n = .none →
    ∃ c : ChannelConfig,
      exec (.adcCfgDecode (pack ch state setup p n)) s = .next (s.complete .none (.channelConfig c)) ∧
      c.valid = true ∧ c.channel = ch.val ∧ (c.enabled = true ↔ state = 1) ∧ (c.setup.toNat : Int) = setup ∧
      (c.inputPositive.toNat : Int) = p ∧ (c.inputNegative.toNat : Int) = n) ∧
  ∀ i : AdcChan, (unpack ⟨disableAllBytes.getD (3 * i.val) 0, disableAllBytes.getD (3 * i.val + 1) 0,
    disableAllBytes.getD (3 * i.val + 2) 0⟩).enabled = false

/-! ### DAC codes -/

/-- R171 (43): the three roundings. -/
def Obligations.RoundingModes : Prop :=
  ∀ x : Rat,
    (0 ≤ x → roundQ .halfAwayFromZero x = ⌊x + 1 / 2⌋ ∧ roundQ .towardZero x = ⌊x⌋) ∧
    (x < 0 → roundQ .halfAwayFromZero x = -⌊-x + 1 / 2⌋ ∧ roundQ .towardZero x = -⌊-x⌋) ∧
    |(roundQ .halfToEven x : Rat) - x| ≤ 1 / 2 ∧
    (|(roundQ .halfToEven x : Rat) - x| = 1 / 2 → Even (roundQ .halfToEven x))

/-- R170, R173 (43): `DAC_V2C`. -/
def Obligations.DacV2cConvertsOrRejects : Prop :=
  ∀ (s : State) (v : Volts), s.IsIdle →
    decodeOp 0x05 (.volts v) = some (.dacV2c v) ∧
    (10 < |v| → exec (.dacV2c v) s = .next (s.complete .voltageOverrange (.code 999))) ∧
    (0 ≤ v → v ≤ 10 → ∃ c : DacCode, (c.toNat : Int) = roundQ s.cfg.rounding (v * 524287 / 10) ∧
      exec (.dacV2c v) s = .next (s.complete .none (.code c))) ∧
    (v < 0 → -10 ≤ v → ∃ c : DacCode,
      (c.toNat : Int) = (roundQ s.cfg.rounding (v * 524288 / 10) + 1048576) % 1048576 ∧
      exec (.dacV2c v) s = .next (s.complete .none (.code c)))

/-- R172, R174 (43): `DAC_C2V`, by the signed reading of the code; the range is -10 to 10. -/
def Obligations.DacC2vReadsSignedCode : Prop :=
  ∀ (s : State) (code : DacCode), s.IsIdle →
    decodeOp 0x06 (.code20 code) = some (.dacC2v code) ∧
    ∃ v : Volts, exec (.dacC2v code) s = .next (s.complete .none (.volts v)) ∧
      v = (if 0 ≤ code.toInt then (code.toInt : Rat) * 10 / 524287 else (code.toInt : Rat) * 10 / 524288) ∧
      -10 ≤ v ∧ v ≤ 10

/-- R175 (43): `DAC_WRITE_ENCODE`, by the table of 30 R95; the top nibble of the code comes back from byte 0. -/
def Obligations.DacWriteEncodeLaysOutCode : Prop :=
  ∀ (s : State) (code : DacCode), s.IsIdle →
    decodeOp 0x07 (.code20 code) = some (.dacWriteEncode code) ∧
    exec (.dacWriteEncode code) s = .next (s.complete .none (.bytes3 (dacWriteBytes s.cfg.dacWriteNibble code))) ∧
    (dacWriteBytes s.cfg.dacWriteNibble code).b0.toNat % 16 = code.toNat / 65536 ∧
    dacWriteBytes s.cfg.dacWriteNibble 0 = ⟨s.cfg.dacWriteCtrl, 0, 0⟩

/-- R176 (43): `DAC_READ_DECODE`; it takes the code back from every write frame. -/
def Obligations.DacReadDecodeMasksNibble : Prop :=
  ∀ (s : State) (f : Bytes3), s.IsIdle →
    decodeOp 0x08 (.bytes3 f) = some (.dacReadDecode f) ∧
    exec (.dacReadDecode f) s = .next (s.complete .none
      (.code (BitVec.ofNat 20 (f.b0.toNat % 16 * 65536 + f.b1.toNat * 256 + f.b2.toNat)))) ∧
    ∀ (cfg : Config) (code : DacCode), f = writeFrame cfg code →
      exec (.dacReadDecode f) s = .next (s.complete .none (.code code))

/-- R177 (43): the four facts, for every rounding. -/
def Obligations.ConverterFacts : Prop :=
  ∀ mode : Rounding,
    (∀ v : Volts, |v| ≤ 10 → ∃ c, voltageToCode mode v = some c ∧
      |codeToVoltage c - v| < 10 / 524287 ∧
      |codeToVoltage c - v| < (if 0 ≤ v then 10 / 524287 else 10 / 524288) ∧
      (mode ≠ .towardZero →
        |codeToVoltage c - v| ≤ (1 / 2) * (if 0 ≤ v then 10 / 524287 else 10 / 524288))) ∧
    voltageToCode mode 10 = some 524287 ∧ voltageToCode mode (-10) = some 524288 ∧
    voltageToCode mode 11 = none ∧
    (∀ c d : DacCode, codeToVoltage c = codeToVoltage d → c = d) ∧
    ∀ c : DacCode, voltageToCode mode (codeToVoltage c) = some c

/-! ### ADC driver -/

/-- R200, R201 (44): `ADC_CODE_DECODE`. -/
def Obligations.AdcCodeDecodeConverts : Prop :=
  ∀ (s : State) (f : Bytes3), s.IsIdle →
    decodeOp 0x09 (.bytes3 f) = some (.adcCodeDecode f) ∧
    ∃ (c : AdcCode) (v : Volts), c.toNat = f.b0.toNat * 65536 + f.b1.toNat * 256 + f.b2.toNat ∧
      v = ((c.toNat : Rat) / 8388608 - 1) * 25 ∧ -25 ≤ v ∧ v ≤ 25 * 8388607 / 8388608 ∧
      exec (.adcCodeDecode f) s = .next (s.complete .none (.reading c v))

/-- R190 (44): `ADC_CONFIGURE_CHANNEL` sends and records a valid configuration only. -/
def Obligations.AdcConfigureChannelCommitsOnSuccess : Prop :=
  ∀ (s : State) (ch : AdcChan) (state setup p n : BitVec 32), s.IsIdle →
    decodeOp 0x10 (.channelConfig ch state setup p n) = some (.adcConfigureChannel ch state setup p n) ∧
    (∀ e, ConfigError state.toInt setup.toInt p.toInt n.toInt e →
      exec (.adcConfigureChannel ch state setup p n) s = .next (s.complete e .unit)) ∧
    (ConfigValid state.toInt setup.toInt p.toInt n.toInt →
      ∃ (f : Bytes3) (t : State),
        f = chcfgBytes ch state.toInt.toNat setup.toInt.toNat p.toInt.toNat n.toInt.toNat ∧
        t = { s.transfer .adcSelect f.toList with
          enabled := s.enabled.set ch (state.toInt = 1)
          seqpos := .busy (.adcConfigureChannel ch state setup p n) 1 (.finish .none (.bytes3 f)) } ∧
        exec (.adcConfigureChannel ch state setup p n) s = .next t ∧
        exec (.adcConfigureChannel ch state setup p n) t = .next (t.complete .none (.bytes3 f)))

/-- R191 (44): `ADC_DISABLE_ALL`. -/
def Obligations.AdcDisableAllClearsEnables : Prop :=
  decodeOp 0x11 .none = some .adcDisableAll ∧
  ∀ s : State, s.IsIdle → ∃ t,
    t = { s.transfer .adcSelect disableAllPattern with
      enabled := Vector.replicate 16 false, seqpos := .busy .adcDisableAll 1 (.finish .none .unit) } ∧
    exec .adcDisableAll s = .next t ∧ exec .adcDisableAll t = .next (t.complete .none .unit)

/-- R192, R199 (44): `ADC_SELECT_MODE`, in any `adcState`. That `adcState` is `ModeSelected` already in the step of the
transfer, before the `Complete`, is read from R199 by inference (log 7). -/
def Obligations.AdcSelectModeSendsModeFrame : Prop :=
  decodeOp 0x12 .none = some .adcSelectMode ∧
  ∀ s : State, s.IsIdle → ∃ t,
    t = { s.transfer .adcSelect s.cfg.adcModeFrame.toList with
      adcState := .modeSelected, seqpos := .busy .adcSelectMode 1 (.finish .none .unit) } ∧
    exec .adcSelectMode s = .next t ∧ exec .adcSelectMode t = .next (t.complete .none .unit)

/-- R193, R194 (44), R273 (60): `ADC_WAIT_DRDY` ends at the first low read, or after the reads the timeout allows;
with no timeout a line that never reads low is polled without end: after any number of reads it is still waiting. -/
def Obligations.AdcWaitDrdyPollsUntilLowOrTimeout : Prop :=
  decodeOp 0x13 .none = some .adcWaitDrdy ∧
  (∀ s : State, s.IsIdle → s.levelNow = .low → ∃ t, exec .adcWaitDrdy s = .next t ∧
    exec .adcWaitDrdy t = .next (({ s with adcState := .awaitingDataReady } : State).pollDrdy.complete .none .unit)) ∧
  (∀ (s : State) (n : Nat) (rest : List Level), s.IsIdle →
    s.levelAnswers = List.replicate n .high ++ .low :: rest →
    (∀ limit, s.cfg.drdyTimeoutPolls = some limit → n < limit) →
    execs .adcWaitDrdy (n + 2) s = .next
      ((State.pollDrdy^[n + 1] { s with adcState := .awaitingDataReady }).complete .none .unit)) ∧
  (∀ (s : State) (limit : Nat) (rest : List Level), s.IsIdle → 1 ≤ limit →
    s.cfg.drdyTimeoutPolls = some limit → s.levelAnswers = List.replicate limit .high ++ rest →
    execs .adcWaitDrdy (limit + 1) s = .next
      (({ State.pollDrdy^[limit] { s with adcState := .awaitingDataReady } with adcState := .idle } : State).complete
        .dataReadyTimeout .unit)) ∧
  ∀ (s : State) (n : Nat) (rest : List Level), s.IsIdle → s.cfg.drdyTimeoutPolls = none →
    s.levelAnswers = List.replicate (n + 1) .high ++ rest →
    execs .adcWaitDrdy (n + 1) s = .next
      ((State.pollDrdy^[n + 1] { s with adcState := .awaitingDataReady }).pause .adcWaitDrdy (n + 1)
        (.polling (n + 1)))

/-- R195, R196, R199 (44): `ADC_READ_CHANNEL` files the code of `rx[1..3]` under its channel; `rx[0]` is ignored. That
`adcState` is `DataCaptured` in the transfer's own step and `Idle` in the next is read from R199 by inference (log 7). -/
def Obligations.AdcReadChannelFilesResult : Prop :=
  ∀ (s : State) (ch : AdcChan) (r0 r1 r2 r3 : Byte), s.IsIdle → s.rxFor 4 = [r0, r1, r2, r3] →
    decodeOp 0x14 (.adcChannel ch) = some (.adcReadChannel ch) ∧
    ∃ (c : AdcCode) (v : Volts) (t : State), c.toNat = r1.toNat * 65536 + r2.toNat * 256 + r3.toNat ∧
      v = ((c.toNat : Rat) / 8388608 - 1) * 25 ∧
      t = { s.transfer .adcSelect [s.cfg.adcDataReadCmd, 0x00, 0x00, 0x00] with
        adcCode := s.adcCode.set ch (some c)
        adcVoltage := s.adcVoltage.set ch (some v)
        adcState := .dataCaptured
        seqpos := .busy (.adcReadChannel ch) 1 (.captured c v) } ∧
      exec (.adcReadChannel ch) s = .next t ∧
      exec (.adcReadChannel ch) t = .next (({ t with adcState := .idle } : State).complete .none (.reading c v))

/-- R197, R198 (44): `ADC_FULL_READING` over the enabled channels, ascending, each wait ending in a low read before any
timeout: the mode frame, then for each channel its polls and one data read, then the results. -/
def Obligations.AdcFullReadingReadsEnabledChannels : Prop :=
  decodeOp 0x15 .none = some .adcFullReading ∧
  ∀ (s : State) (waits : Waits) (rest : List Level), s.IsIdle → WaitsEnd s.cfg (enabledChans s.enabled) waits →
    s.levelAnswers = levelsOf waits ++ rest →
    (∃ t, exec .adcFullReading s = .next t) ∧
    execs .adcFullReading ((levelsOf waits).length + waits.length + 2) s = .next
      (({ (bigReadings waits s.sendMode).2 with adcState := .idle } : State).complete .none
        (.readings (bigReadings waits s.sendMode).1))

/-- R198 (44): a timed-out reading stops at the channel that timed out: the channels before it keep their new
values, that channel and the later ones their old ones. -/
def Obligations.AdcFullReadingTimeoutKeepsEarlierResults : Prop :=
  ∀ (s : State) (waits : Waits) (before after : List AdcChan) (c : AdcChan) (limit : Nat) (rest : List Level),
    s.IsIdle → enabledChans s.enabled = before ++ c :: after → WaitsEnd s.cfg before waits → 1 ≤ limit →
    s.cfg.drdyTimeoutPolls = some limit → s.levelAnswers = levelsOf waits ++ List.replicate limit .high ++ rest →
    execs .adcFullReading ((levelsOf waits).length + waits.length + limit + 2) s = .next
      (({ State.pollDrdy^[limit] { (bigReadings waits s.sendMode).2 with adcState := .awaitingDataReady } with
        adcState := .idle } : State).complete .dataReadyTimeout .unit)

/-! ### DAC driver -/

/-- R210 (45): `DAC_INIT_ALL`, one frame to each channel, ascending. -/
def Obligations.DacInitAllSendsFourFrames : Prop :=
  decodeOp 0x20 .none = some .dacInitAll ∧
  ∀ s : State, s.IsIdle →
    (∃ t, exec .dacInitAll s = .next t) ∧
    execs .dacInitAll 5 s = .next
      (((((s.transfer (.sync 0) s.cfg.dacInitFrame.toList).transfer (.sync 1) s.cfg.dacInitFrame.toList).transfer
        (.sync 2) s.cfg.dacInitFrame.toList).transfer (.sync 3) s.cfg.dacInitFrame.toList).complete .none .unit)

/-- R211 to R213 (45): `DAC_SET_VOLTAGE`: an overrange makes no event but its `Complete`; a voltage in range is
written, recorded, latched if asked for, and reported as its code reads back. -/
def Obligations.DacSetVoltageWritesAndCommits : Prop :=
  ∀ (s : State) (ch : DacChan) (v : Volts) (update : Bool), s.IsIdle →
    decodeOp 0x21 (.setVoltage ch v update) = some (.dacSetVoltage ch v update) ∧
    (10 < |v| → exec (.dacSetVoltage ch v update) s = .next (s.complete .voltageOverrange (.volts 999))) ∧
    (|v| ≤ 10 → ∃ (code : DacCode) (w : State), voltageToCode s.cfg.rounding v = some code ∧
      w = { s.transfer (.sync ch) (dacWriteBytes s.cfg.dacWriteNibble code).toList with
        dac := s.dac.set ch { s.dac[ch] with lastCode := some code } } ∧
      (∃ t, exec (.dacSetVoltage ch v update) s = .next t ∧ t = { w with seqpos := t.seqpos }) ∧
      (update = false → execs (.dacSetVoltage ch v update) 2 s =
        .next (w.complete .none (.volts (codeToVoltage code)))) ∧
      (update = true → execs (.dacSetVoltage ch v update) 4 s =
        .next (((w.setLatch .low).setLatch .high).complete .none (.volts (codeToVoltage code)))))

/-- R215 to R217 (45): the two readbacks make the same two transfers and record the same code and voltage; only the
value differs. -/
def Obligations.DacReadbackTakesTwoTransfers : Prop :=
  ∀ (s : State) (ch : DacChan) (r0 r1 r2 : Byte) (c : DacCode), s.IsIdle →
    (s.transfer (.sync ch) s.cfg.dacReadReq.toList).rxFor 3 = [r0, r1, r2] →
    c.toNat = r0.toNat % 16 * 65536 + r1.toNat * 256 + r2.toNat →
    decodeOp 0x22 (.dacChannel ch) = some (.dacReadVoltage ch) ∧
    decodeOp 0x23 (.dacChannel ch) = some (.dacReadRegister ch) ∧
    ∃ t : State,
      t = { (s.transfer (.sync ch) s.cfg.dacReadReq.toList).transfer (.sync ch) [0x00, 0x00, 0x00] with
        dac := s.dac.set ch { s.dac[ch] with
          lastReadCode := some c, lastReadVoltage := some (codeToVoltage c) } } ∧
      (∃ t₁, exec (.dacReadVoltage ch) s = .next t₁) ∧
      execs (.dacReadVoltage ch) 3 s = .next (t.complete .none (.volts (codeToVoltage c))) ∧
      (∃ t₁, exec (.dacReadRegister ch) s = .next t₁) ∧
      execs (.dacReadRegister ch) 3 s = .next (t.complete .none (.code c))

/-- R213, R214 (45): `DAC_UPDATE_OUTPUTS` is one latch pulse, low then high. -/
def Obligations.DacUpdateOutputsPulsesLatch : Prop :=
  decodeOp 0x24 .none = some .dacUpdateOutputs ∧
  ∀ s : State, s.IsIdle → ∃ t₁ t₂,
    t₁ = { s.setLatch .low with seqpos := .busy .dacUpdateOutputs 1 .pulseLow } ∧
    t₂ = { t₁.setLatch .high with seqpos := .busy .dacUpdateOutputs 2 (.finish .none .unit) } ∧
    exec .dacUpdateOutputs s = .next t₁ ∧ exec .dacUpdateOutputs t₁ = .next t₂ ∧
    exec .dacUpdateOutputs t₂ = .next (t₂.complete .none .unit)

/-! ### Ramps -/

/-- R230, R231 (46): `RAMP_PLAN`. That it leaves `cancelReq` as it is is read from R231 by inference, against the words
of 10 R30 (log 8). -/
def Obligations.RampPlanComputesDeltas : Prop :=
  ∀ (s : State) (plan : Plan), s.IsIdle →
    decodeOp 0x30 (.plan plan) = some (.rampPlan plan) ∧
    (plan.stepCount = 0 → exec (.rampPlan plan) s = .next (s.complete .invalidStepCount .unit)) ∧
    (plan.stepCount ≠ 0 → ∃ dv : Vector (Option Volts) 4,
      exec (.rampPlan plan) s = .next (s.complete .none (.deltas dv)) ∧
      ∀ c : DacChan, dv[c] =
        if plan.activeDacMask.getLsbD c.val then
          some ((plan.vFinal[c] - plan.vInitial[c]) / (plan.stepCount.toNat : Rat))
        else none)

/-- R232, R233 (46): `RAMP_PRIME` writes and latches each active channel in range, ascending, with a pulse each, and
reports an overrange if there was one. That it leaves `cancelReq` as it is is read from R233 by inference, against the
words of 10 R30 (log 8). -/
def Obligations.RampPrimeCommitsEachChannel : Prop :=
  ∀ (s : State) (mask : BitVec 4) (vInitial : Vector Volts 4), s.IsIdle →
    decodeOp 0x31 (.prime mask vInitial) = some (.rampPrime mask vInitial) ∧
    (∃ t, exec (.rampPrime mask vInitial) s = .next t) ∧
    execs (.rampPrime mask vInitial)
      (3 * ((dacChansOf mask).filter fun c => !overrange vInitial[c]).length + 1) s = .next
      ((bigPrime vInitial (dacChansOf mask) s).complete
        (if (dacChansOf mask).any fun c => overrange vInitial[c] then .voltageOverrange else .none) .unit)

/-- R234, R236, R238, R239 (46): `RAMP_SIMPLE` is priming, steps 1 to `stepCount`, and the result; with a cancel
pending it is priming and the result (R235); a plan without steps is rejected before any event. That a rejected plan
leaves `cancelReq` as it is is read from R236 and 60 R262 by inference (log 8). -/
def Obligations.RampSimpleRefinesItsSteps : Prop :=
  ∀ (s : State) (plan : Plan), s.IsIdle →
    decodeOp 0x32 (.plan plan) = some (.rampSimple plan) ∧
    (plan.stepCount = 0 → exec (.rampSimple plan) s = .next (s.complete .invalidStepCount .unit)) ∧
    (plan.stepCount ≠ 0 →
      (∃ t, exec (.rampSimple plan) s = .next t) ∧
      ∃ n err u, IsRampErr plan (if s.cancelBit then 0 else plan.stepCount.toNat) err ∧
        u = (bigPrime plan.vInitial (dacChansOf plan.activeDacMask) s.beginRamp).primed .steppingWithoutCapture ∧
        execs (.rampSimple plan) n s = .next
          (if s.cancelBit then ({ u with rampCancelled := true } : State).endRamp err true 0
           else (bigSteps plan plan.stepCount.toNat u).endRamp err false 0))

/-- R237, R238, R239, R240 (46): `RAMP_BUFFERED` with two steps or more, no cancel pending and each wait ending in a low
read before any timeout: priming, the baseline pass, then each step and its pass, and the result. A pass counted past
2^32 - 1 leaves a free value (log 9, the model's choice). -/
def Obligations.RampBufferedRefinesItsSteps : Prop :=
  ∀ (s : State) (plan : Plan) (waits : Nat → Waits) (rest : List Level), s.IsIdle → 2 ≤ plan.stepCount.toNat →
    (∃ t, exec (.rampBuffered plan) s = .next t) ∧
    (s.cancelBit = false →
      (∀ k, k ≤ plan.stepCount.toNat → WaitsEnd s.cfg (adcChansOf plan.activeAdcMask) (waits k)) →
      s.levelAnswers = levelsOfPasses waits plan.stepCount.toNat ++ rest →
      ∃ n err u, IsRampErr plan plan.stepCount.toNat err ∧
        u = bigCaptureSteps plan waits plan.stepCount.toNat
          ((bigPass 0 (waits 0)
            ((bigPrime plan.vInitial (dacChansOf plan.activeDacMask) s.beginRamp).primed
              .steppingWithCapture)).countPass 0) ∧
        execs (.rampBuffered plan) n s = .next (u.endRamp err false u.rampPasses))

/-- R237 (46): `RAMP_BUFFERED` with one step takes the baseline pass only and makes no step; with none it is
rejected before any event. That a rejected plan leaves `cancelReq` as it is is read from R237 and 60 R262 by inference
(log 8). -/
def Obligations.RampBufferedOfOneStepIsItsBaseline : Prop :=
  ∀ (s : State) (plan : Plan) (waits : Waits) (rest : List Level), s.IsIdle →
    decodeOp 0x33 (.plan plan) = some (.rampBuffered plan) ∧
    (plan.stepCount = 0 → exec (.rampBuffered plan) s = .next (s.complete .invalidStepCount .unit)) ∧
    (plan.stepCount = 1 → WaitsEnd s.cfg (adcChansOf plan.activeAdcMask) waits →
      s.levelAnswers = levelsOf waits ++ rest →
      (∃ t, exec (.rampBuffered plan) s = .next t) ∧
      ∃ n err u, IsRampErr plan 0 err ∧
        u = bigPass 0 waits
          ((bigPrime plan.vInitial (dacChansOf plan.activeDacMask) s.beginRamp).primed .steppingWithCapture) ∧
        execs (.rampBuffered plan) n s = .next (({ u with rampPasses := 1 } : State).endRamp err false 1))

/-- R241 (46): the event counts of a ramp with no error and no cancel. -/
def Obligations.RampEventCounts : Prop :=
  ∀ (s : State) (plan : Plan) (waits : Nat → Waits) (rest : List Level) (a m steps : Nat), s.IsIdle →
    s.cancelBit = false → (∀ k, k ≤ steps → WaitsEnd s.cfg (adcChansOf plan.activeAdcMask) (waits k)) →
    a = (dacChansOf plan.activeDacMask).length → m = (adcChansOf plan.activeAdcMask).length →
    steps = plan.stepCount.toNat → 1 ≤ steps → ¬RampOverrange plan steps →
    (∃ n t new, execs (.rampSimple plan) n s = .next t ∧ t.IsIdle ∧ t.log = new ++ s.log ∧
      new.countP Event.isComplete = 1 ∧ new.countP Event.isDacTransfer = a * (steps + 1) ∧
      new.countP (Event.isLatch .low) = a + steps ∧ new.countP (Event.isLatch .high) = a + steps ∧
      new.countP Event.isSleep = steps ∧ new.countP Event.isAdcTransfer = 0 ∧ new.countP Event.isEmit = 0) ∧
    (2 ≤ steps → s.levelAnswers = levelsOfPasses waits steps ++ rest →
      ∃ n t new, execs (.rampBuffered plan) n s = .next t ∧ t.IsIdle ∧ t.log = new ++ s.log ∧
        new.countP Event.isComplete = 1 ∧ new.countP Event.isDacTransfer = a * (steps + 1) ∧
        new.countP (Event.isLatch .low) = a + steps ∧ new.countP (Event.isLatch .high) = a + steps ∧
        new.countP Event.isSleep = steps ∧ new.countP Event.isAdcTransfer = (steps + 1) * (1 + m) ∧
        new.countP Event.isEmit = (steps + 1) * m) ∧
    (steps = 1 → s.levelAnswers = levelsOf (waits 0) ++ rest →
      ∃ n t new, execs (.rampBuffered plan) n s = .next t ∧ t.IsIdle ∧ t.log = new ++ s.log ∧
        new.countP Event.isComplete = 1 ∧ new.countP Event.isDacTransfer = a ∧
        new.countP (Event.isLatch .low) = a ∧ new.countP (Event.isLatch .high) = a ∧
        new.countP Event.isSleep = 0 ∧ new.countP Event.isAdcTransfer = 1 + m ∧ new.countP Event.isEmit = m)

/-- R235 (46): at the boundary before a step a pending cancel ends the ramp there, with nothing of the step made, be it
the boundary after a sleep or a pass, or the one before step 1 that a simple ramp reaches at the end of its priming;
after the last step there is no boundary left to cancel at. -/
def Obligations.RampCancelEndsAtBoundary : Prop :=
  (∀ (s : State) (plan : Plan) (k : Nat) (regs : RampRegs), s.seqpos = .busy (.rampSimple plan) k (.slept regs) →
    (regs.step < plan.stepCount.toNat → s.cancelBit = true →
      exec (.rampSimple plan) s = .next (({ s with rampCancelled := true } : State).endRamp regs.rampErr true 0)) ∧
    (plan.stepCount.toNat ≤ regs.step →
      exec (.rampSimple plan) s = .next (s.endRamp regs.rampErr s.rampCancelled 0))) ∧
  (∀ (s : State) (plan : Plan) (k : Nat) (regs : RampRegs) (todo : List DacChan),
    s.seqpos = .busy (.rampSimple plan) k (.primeNext regs todo) → plan.stepCount ≠ 0 → s.cancelBit = true →
    (∀ c ∈ todo, overrange plan.vInitial[c] = true) →
    exec (.rampSimple plan) s = .next
      (({ s with rampState := .steppingWithoutCapture, rampCancelled := true } : State).endRamp
        (if todo = [] ∨ regs.rampErr ≠ .none then regs.rampErr else .voltageOverrange) true 0)) ∧
  ∀ (s : State) (plan : Plan) (k pass : Nat) (regs : RampRegs),
    s.seqpos = .busy (.rampBuffered plan) k (.passNext (.ramp regs pass) []) → 2 ≤ plan.stepCount.toNat →
    (pass < plan.stepCount.toNat → s.cancelBit = true →
      ∃ u : State, u = ({ s with adcState := .idle } : State).countPass pass ∧
        exec (.rampBuffered plan) s =
          .next (({ u with rampCancelled := true } : State).endRamp regs.rampErr true u.rampPasses)) ∧
    (plan.stepCount.toNat ≤ pass →
      ∃ u : State, u = ({ s with adcState := .idle } : State).countPass pass ∧
        exec (.rampBuffered plan) s = .next (u.endRamp regs.rampErr u.rampCancelled u.rampPasses))

/-- R239 (46), R264 (60): a data-ready timeout in a pass ends a buffered ramp at once, over any earlier error. -/
def Obligations.RampTimeoutAborts : Prop :=
  ∀ (s : State) (plan : Plan) (k pass limit : Nat) (regs : RampRegs) (c : AdcChan) (todo : List AdcChan)
    (rest : List Level),
    s.seqpos = .busy (.rampBuffered plan) k (.passNext (.ramp regs pass) (c :: todo)) → 1 ≤ limit →
    s.cfg.drdyTimeoutPolls = some limit → s.levelAnswers = List.replicate limit .high ++ rest →
    execs (.rampBuffered plan) (limit + 1) s = .next
      (({ State.pollDrdy^[limit] { s with adcState := .awaitingDataReady } with adcState := .idle } : State).endRamp
        .dataReadyTimeout false s.rampPasses)

/-- R234 (46), R301 (70): the voltage a step writes to an active channel is that of the plan alone; at the last step it
is exactly `vFinal`, and endpoints in range keep it in range at every step. -/
def Obligations.InterpolationStaysBetweenEndpoints : Prop :=
  ∀ (plan : Plan) (regs : RampRegs) (c : DacChan), regs.Fits plan → plan.activeDacMask.getLsbD c.val = true →
    stepVoltage plan regs c = planVoltage plan regs.step c ∧
    (regs.step = plan.stepCount.toNat → stepVoltage plan regs c = plan.vFinal[c]) ∧
    (|plan.vInitial[c]| ≤ 10 → |plan.vFinal[c]| ≤ 10 → regs.step ≤ plan.stepCount.toNat →
      overrange (stepVoltage plan regs c) = false)

/-! ### Status -/

/-- R250 (47): `READ_STATUS` reports the state before its own `Complete` and writes only `LAST_ERR`. -/
def Obligations.ReadStatusReportsState : Prop :=
  decodeOp 0x40 .none = some .readStatus ∧
  ∀ s : State, s.IsIdle → ∃ r : StatusRecord,
    exec .readStatus s = .next { s with lastErr := 0, log := .complete .none (.status r) :: s.log } ∧
    r.lastErr = s.lastErr ∧ r.adcState = s.adcState ∧ r.rampState = s.rampState ∧ r.enabled = s.enabled ∧
    r.adcCode = s.adcCode ∧ r.adcVoltage = s.adcVoltage ∧
    (∀ c : DacChan, r.dac[c].lastCode = s.dac[c].lastCode ∧ r.dac[c].lastReadCode = s.dac[c].lastReadCode ∧
      r.dac[c].lastReadVoltage = s.dac[c].lastReadVoltage) ∧
    r.rampStepsDone = s.rampStepsDone ∧ r.rampCancelled = s.rampCancelled ∧ r.rampPasses = s.rampPasses ∧
    r.cancelReq = (s.cfg.cancelSupported && s.cancelReq)

/-! ### Wire frames -/

/-- R91 to R94, R98 (30): each ADC frame is one transfer on `ADC_SELECT` of the bytes its table gives, and the error
frame is never transferred: nothing happens (log 14). 20 R71, R83: a configuration frame writes its channel's register
(when the mode frame is no CHCFG frame), the disable-all frame writes all sixteen, the mode frame makes one result due
for each enabled channel, a data-read frame delivers one, and a poll that reads low while a result is due finds the line
driven. That a wire frame can be issued alone is the model's choice (log 13), and so are the chips in State and what a
mode, configuration or disable-all frame does to results still due (log 15, 16). -/
def Obligations.WireAdcFramesAreOneTransfer : Prop :=
  ∀ s : State, s.IsIdle →
    (∀ (ch : AdcChan) (enabled : Bool) (setup : BitVec 3) (p : Fin 16) (n : Fin 17),
      exec (.wireAdcChcfg ch enabled setup p n) s = .next
        (s.transfer .adcSelect (chcfgBytes ch enabled.toNat setup.toNat p.val n.val).toList)) ∧
    exec .wireAdcDisableAll s = .next (s.transfer .adcSelect disableAllBytes) ∧
    exec .wireAdcMode s = .next
      (s.transfer .adcSelect [s.cfg.adcModeFrame.b0, s.cfg.adcModeFrame.b1, s.cfg.adcModeFrame.b2]) ∧
    exec .wireAdcDataRead s = .next (s.transfer .adcSelect [s.cfg.adcDataReadCmd, 0x00, 0x00, 0x00]) ∧
    exec .wirePoison s = .next s ∧
    ∀ t : State,
      (∀ (ch : AdcChan) (enabled : Bool) (setup : BitVec 3) (p : Fin 16) (n : Fin 17), s.cfg.FramesDistinct = true →
        exec (.wireAdcChcfg ch enabled setup p n) s = .next t → t.chips = { s.chips with
          adcReg := s.chips.adcReg.set ch
            (BitVec.ofNat 16 (enabled.toNat * 32768 + setup.toNat * 4096 + p.val * 32 + n.val)) }) ∧
      (exec .wireAdcDisableAll s = .next t → t.chips = { s.chips with adcReg := Vector.replicate 16 0x0001 }) ∧
      (exec .wireAdcMode s = .next t → t.chips = { s.chips with
        adcDue := allAdcChans.filter fun i => 32768 ≤ s.chips.adcReg[i].toNat, drdyLow := false }) ∧
      (exec .wireAdcDataRead s = .next t → t.chips = { s.chips with
        adcDue := s.chips.adcDue.tail, drdyLow := false }) ∧
      (exec .adcWaitDrdy s = .next t → t.chips = { s.chips with
        drdyLow := s.chips.drdyLow || (s.levelNow = .low && s.chips.adcDue ≠ []) })

/-- R95 to R97 (30), R81 (20): each DAC frame is one transfer on its channel's line, with its effect on the
reference DAC when the parameter frames can be told apart. That a wire frame can be issued alone is the model's
choice (log 13), and so are the chips in State (log 15). -/
def Obligations.WireDacFramesReachTheReferenceDac : Prop :=
  ∀ (s : State) (c : DacChan), s.IsIdle →
    (∀ code : DacCode, exec (.wireDacWrite c code) s = .next
      (s.transfer (.sync c) (dacWriteBytes s.cfg.dacWriteNibble code).toList)) ∧
    exec (.wireDacReadRequest c) s = .next (s.transfer (.sync c) s.cfg.dacReadReq.toList) ∧
    exec (.wireDacReadNull c) s = .next (s.transfer (.sync c) [0x00, 0x00, 0x00]) ∧
    exec (.wireDacInit c) s = .next (s.transfer (.sync c) s.cfg.dacInitFrame.toList) ∧
    (s.cfg.FramesDistinct = true → ∀ t : State,
      (∀ code : DacCode, exec (.wireDacWrite c code) s = .next t → t.chips.dac = s.chips.dac.set c
        { s.chips.dac[c] with reg := code, pend := true, readArmed := false }) ∧
      (exec (.wireDacReadRequest c) s = .next t → t.chips.dac = s.chips.dac.set c
        { s.chips.dac[c] with readArmed := true }) ∧
      (exec (.wireDacReadNull c) s = .next t → t.chips.dac = s.chips.dac.set c
        { s.chips.dac[c] with readArmed := false }) ∧
      (exec (.wireDacInit c) s = .next t → t.chips.dac = s.chips.dac.set c
        { s.chips.dac[c] with tri := false, readArmed := false }))

/-- 20 R62, R63, 30 R90, 41 R131: every transfer is of one block of 3, 4 or 48 bytes, unheld, and is answered by as
many bytes, the environment's next answer. -/
def Obligations.TransfersAreOneUnheldBlock : Prop :=
  ∀ (i : Instr) (s t : State) (line : Line) (f : Frame) (hold : Bool) (rx : List Byte), exec i s = .next t →
    t.log = .transfer line f hold rx :: s.log →
    hold = false ∧ f.blockCount = 1 ∧ f.blockSize = f.bytes.length ∧ f.bytes.length ∈ [3, 4, 48] ∧
    rx.length = f.bytes.length ∧ rx = s.rxFor f.bytes.length ∧ t.rxAnswers = s.rxAnswers.tail

/-! ### Frames: what no instruction but the named ones changes -/

/-- 10 R26, 45 R211, R215: the constants of a DAC record never change, `lastCode` changes only in a write or a ramp,
the readback fields only in a readback of that channel. -/
def Obligations.DacRecordFrame : Prop :=
  ∀ (i : Instr) (s t : State) (c : DacChan), exec i s = .next t →
    t.dac[c].syncLine = s.dac[c].syncLine ∧ t.dac[c].ge = s.dac[c].ge ∧ t.dac[c].os = s.dac[c].os ∧
    ((∀ v u, i ≠ .dacSetVoltage c v u) → (∀ m v, i ≠ .rampPrime m v) → (∀ p, i ≠ .rampSimple p) →
      (∀ p, i ≠ .rampBuffered p) → t.dac[c].lastCode = s.dac[c].lastCode) ∧
    (i ≠ .dacReadVoltage c → i ≠ .dacReadRegister c →
      t.dac[c].lastReadCode = s.dac[c].lastReadCode ∧ t.dac[c].lastReadVoltage = s.dac[c].lastReadVoltage)

/-- 10 R32: `latchLevel` is written by `SetLevel(LATCH_PIN, ·)` only, and only the operations with a latch pulse
make that event. -/
def Obligations.LatchFrame : Prop :=
  ∀ (i : Instr) (s t : State), exec i s = .next t →
    (t.latchLevel = s.latchLevel ∧ (∀ lvl, t.log ≠ .setLevel .latch lvl :: s.log)) ∨
    ((∃ lvl, t.log = .setLevel .latch lvl :: s.log ∧ t.latchLevel = some lvl) ∧
      ((∃ c v u, i = .dacSetVoltage c v u) ∨ i = .dacUpdateOutputs ∨ (∃ m v, i = .rampPrime m v) ∨
        (∃ p, i = .rampSimple p) ∨ ∃ p, i = .rampBuffered p))

/-- 10 R23 to R25, 44 R190 to R199: who writes the enables, the results and `adcState`. -/
def Obligations.AdcRecordFrame : Prop :=
  ∀ (i : Instr) (s t : State), exec i s = .next t →
    (∀ c : AdcChan, (∀ a b d e, i ≠ .adcConfigureChannel c a b d e) → i ≠ .adcDisableAll →
      t.enabled[c] = s.enabled[c]) ∧
    (∀ c : AdcChan, i ≠ .adcReadChannel c → i ≠ .adcFullReading → (∀ p, i ≠ .rampBuffered p) →
      t.adcCode[c] = s.adcCode[c] ∧ t.adcVoltage[c] = s.adcVoltage[c]) ∧
    (i ≠ .adcSelectMode → i ≠ .adcWaitDrdy → (∀ c, i ≠ .adcReadChannel c) → i ≠ .adcFullReading →
      (∀ p, i ≠ .rampBuffered p) → t.adcState = s.adcState)

/-- 10 R28, R31, 46 R231, R233, R238: only an accepted ramp writes the ramp fields; no instruction changes the
parameters, the host's queue or its signals. That only an accepted ramp clears `cancelReq`, where 10 R30 says that the
`Complete` of any ramp operation does, is the reading of log 8, by inference from 46 R231, R233, R236 and 60 R262. -/
def Obligations.RampAndHostFrame : Prop :=
  ∀ (i : Instr) (s t : State), exec i s = .next t →
    t.cfg = s.cfg ∧ t.hostQueue = s.hostQueue ∧ t.signals = s.signals ∧
    ((∀ p, i = .rampSimple p ∨ i = .rampBuffered p → p.stepCount = 0 ∧ s.IsIdle) →
      t.rampState = s.rampState ∧ t.rampStepsDone = s.rampStepsDone ∧ t.rampCancelled = s.rampCancelled ∧
      t.rampPasses = s.rampPasses ∧ t.cancelReq = s.cancelReq)

/-! ### Noninterference and the reference chips -/

/-- R84 (20): two states that differ only in the chips take steps that differ only in the chips. -/
def Obligations.ChipsDoNotConstrainTheBlock : Prop :=
  ∀ s u : State, s.withoutChips = u.withoutChips → OutcomesAgree State.withoutChips (step s) (step u)

/-- 00 R10, 10 R26, 45 R218: `GE` and `OS` have no effect. -/
def Obligations.CalibrationHasNoEffect : Prop :=
  ∀ s u : State, s.withoutCalibration = u.withoutCalibration →
    OutcomesAgree State.withoutCalibration (step s) (step u)

/-- R199 (44): `adcState` gates no instruction; only `READ_STATUS` shows it. -/
def Obligations.AdcStateGatesNothing : Prop :=
  ∀ (i : Instr) (s u : State), i ≠ .readStatus → s.withoutAdcState = u.withoutAdcState →
    OutcomesAgree State.withoutAdcState (exec i s) (exec i u)

/-- R73, R80, R82 (20), R214 (45): a latch pulse makes every pending code the output of its channel, all at once, and
leaves nothing pending; the analog output is then the voltage of that code, or nothing while the channel is tristated.
The chips in State are the model's choice (log 15). -/
def Obligations.LatchPulseCommitsPendingCodes : Prop :=
  ∀ s t : State, s.IsIdle → execs .dacUpdateOutputs 2 s = .next t →
    ∀ c : DacChan, t.chips.dac[c] = { s.chips.dac[c] with
      out := if s.chips.dac[c].pend then s.chips.dac[c].reg else s.chips.dac[c].out
      pend := false } ∧
    t.chips.dac[c].analogOutput =
      if s.chips.dac[c].tri then none
      else some (codeToVoltage (if s.chips.dac[c].pend then s.chips.dac[c].reg else s.chips.dac[c].out))

/-- R81 (20), R216 (45): when the second transfer's answer agrees with the reference DAC, a readback returns the
code last written, whether or not it has been latched. The chips in State are the model's choice (log 15). -/
def Obligations.ReadbackUnderReferenceDac : Prop :=
  ∀ (s t₁ t₂ : State) (c : DacChan) (e : Event), s.cfg.FramesDistinct = true → s.IsIdle →
    exec (.dacReadVoltage c) s = .next t₁ → exec (.dacReadVoltage c) t₁ = .next t₂ →
    t₂.log = e :: t₁.log → t₁.chips.Agrees e = true →
    t₂.dac[c].lastReadCode = some s.chips.dac[c].reg ∧
    exec (.dacReadVoltage c) t₂ = .next (t₂.complete .none (.volts (codeToVoltage s.chips.dac[c].reg)))

end
end

