-- ==== Sys2Proof/Laws/State.lean ====
section
/-!
SUPPORT. The fields of a state after each named update: one lemma per field, true by computation. A proof cites
these and unfolds no record update.
-/

namespace Sys2Proof.Machine

variable (s : State)

/-! ### `State.record` -/

@[simp] theorem State.record_seqpos (e : Event) : (s.record e).seqpos = s.seqpos := rfl
@[simp] theorem State.record_enabled (e : Event) : (s.record e).enabled = s.enabled := rfl
@[simp] theorem State.record_adcCode (e : Event) : (s.record e).adcCode = s.adcCode := rfl
@[simp] theorem State.record_adcVoltage (e : Event) : (s.record e).adcVoltage = s.adcVoltage := rfl
@[simp] theorem State.record_adcState (e : Event) : (s.record e).adcState = s.adcState := rfl
@[simp] theorem State.record_dac (e : Event) : (s.record e).dac = s.dac := rfl
@[simp] theorem State.record_lastErr (e : Event) : (s.record e).lastErr = s.lastErr := rfl
@[simp] theorem State.record_rampState (e : Event) : (s.record e).rampState = s.rampState := rfl
@[simp] theorem State.record_cancelReq (e : Event) : (s.record e).cancelReq = s.cancelReq := rfl
@[simp] theorem State.record_rampStepsDone (e : Event) : (s.record e).rampStepsDone = s.rampStepsDone := rfl
@[simp] theorem State.record_rampCancelled (e : Event) : (s.record e).rampCancelled = s.rampCancelled := rfl
@[simp] theorem State.record_rampPasses (e : Event) : (s.record e).rampPasses = s.rampPasses := rfl
@[simp] theorem State.record_latchLevel (e : Event) : (s.record e).latchLevel = s.latchLevel := rfl
@[simp] theorem State.record_cfg (e : Event) : (s.record e).cfg = s.cfg := rfl
@[simp] theorem State.record_log (e : Event) : (s.record e).log = e :: s.log := rfl
@[simp] theorem State.record_hostQueue (e : Event) : (s.record e).hostQueue = s.hostQueue := rfl
@[simp] theorem State.record_signals (e : Event) : (s.record e).signals = s.signals := rfl
@[simp] theorem State.record_rxAnswers (e : Event) : (s.record e).rxAnswers = s.rxAnswers := rfl
@[simp] theorem State.record_levelAnswers (e : Event) : (s.record e).levelAnswers = s.levelAnswers := rfl
@[simp] theorem State.record_freeCount (e : Event) : (s.record e).freeCount = s.freeCount := rfl
@[simp] theorem State.record_chips (e : Event) : (s.record e).chips = s.chips.observe s.cfg e := rfl

/-! ### `State.transfer` -/

@[simp] theorem State.transfer_seqpos (line : Line) (bytes : List Byte) :
    (s.transfer line bytes).seqpos = s.seqpos := rfl
@[simp] theorem State.transfer_enabled (line : Line) (bytes : List Byte) :
    (s.transfer line bytes).enabled = s.enabled := rfl
@[simp] theorem State.transfer_adcCode (line : Line) (bytes : List Byte) :
    (s.transfer line bytes).adcCode = s.adcCode := rfl
@[simp] theorem State.transfer_adcVoltage (line : Line) (bytes : List Byte) :
    (s.transfer line bytes).adcVoltage = s.adcVoltage := rfl
@[simp] theorem State.transfer_adcState (line : Line) (bytes : List Byte) :
    (s.transfer line bytes).adcState = s.adcState := rfl
@[simp] theorem State.transfer_dac (line : Line) (bytes : List Byte) : (s.transfer line bytes).dac = s.dac := rfl
@[simp] theorem State.transfer_lastErr (line : Line) (bytes : List Byte) :
    (s.transfer line bytes).lastErr = s.lastErr := rfl
@[simp] theorem State.transfer_rampState (line : Line) (bytes : List Byte) :
    (s.transfer line bytes).rampState = s.rampState := rfl
@[simp] theorem State.transfer_cancelReq (line : Line) (bytes : List Byte) :
    (s.transfer line bytes).cancelReq = s.cancelReq := rfl
@[simp] theorem State.transfer_rampStepsDone (line : Line) (bytes : List Byte) :
    (s.transfer line bytes).rampStepsDone = s.rampStepsDone := rfl
@[simp] theorem State.transfer_rampCancelled (line : Line) (bytes : List Byte) :
    (s.transfer line bytes).rampCancelled = s.rampCancelled := rfl
@[simp] theorem State.transfer_rampPasses (line : Line) (bytes : List Byte) :
    (s.transfer line bytes).rampPasses = s.rampPasses := rfl
@[simp] theorem State.transfer_latchLevel (line : Line) (bytes : List Byte) :
    (s.transfer line bytes).latchLevel = s.latchLevel := rfl
@[simp] theorem State.transfer_cfg (line : Line) (bytes : List Byte) : (s.transfer line bytes).cfg = s.cfg := rfl
@[simp] theorem State.transfer_log (line : Line) (bytes : List Byte) :
    (s.transfer line bytes).log = .transfer line (oneBlock bytes) false (s.rxFor bytes.length) :: s.log := rfl
@[simp] theorem State.transfer_hostQueue (line : Line) (bytes : List Byte) :
    (s.transfer line bytes).hostQueue = s.hostQueue := rfl
@[simp] theorem State.transfer_signals (line : Line) (bytes : List Byte) :
    (s.transfer line bytes).signals = s.signals := rfl
@[simp] theorem State.transfer_rxAnswers (line : Line) (bytes : List Byte) :
    (s.transfer line bytes).rxAnswers = s.rxAnswers.tail := rfl
@[simp] theorem State.transfer_levelAnswers (line : Line) (bytes : List Byte) :
    (s.transfer line bytes).levelAnswers = s.levelAnswers := rfl
@[simp] theorem State.transfer_freeCount (line : Line) (bytes : List Byte) :
    (s.transfer line bytes).freeCount = s.freeCount + bytes.length := rfl
@[simp] theorem State.transfer_chips (line : Line) (bytes : List Byte) :
    (s.transfer line bytes).chips = s.chips.observe s.cfg (.transfer line (oneBlock bytes) false (s.rxFor bytes.length)) := rfl

/-! ### `State.pollDrdy` -/

@[simp] theorem State.pollDrdy_seqpos : s.pollDrdy.seqpos = s.seqpos := rfl
@[simp] theorem State.pollDrdy_enabled : s.pollDrdy.enabled = s.enabled := rfl
@[simp] theorem State.pollDrdy_adcCode : s.pollDrdy.adcCode = s.adcCode := rfl
@[simp] theorem State.pollDrdy_adcVoltage : s.pollDrdy.adcVoltage = s.adcVoltage := rfl
@[simp] theorem State.pollDrdy_adcState : s.pollDrdy.adcState = s.adcState := rfl
@[simp] theorem State.pollDrdy_dac : s.pollDrdy.dac = s.dac := rfl
@[simp] theorem State.pollDrdy_lastErr : s.pollDrdy.lastErr = s.lastErr := rfl
@[simp] theorem State.pollDrdy_rampState : s.pollDrdy.rampState = s.rampState := rfl
@[simp] theorem State.pollDrdy_cancelReq : s.pollDrdy.cancelReq = s.cancelReq := rfl
@[simp] theorem State.pollDrdy_rampStepsDone : s.pollDrdy.rampStepsDone = s.rampStepsDone := rfl
@[simp] theorem State.pollDrdy_rampCancelled : s.pollDrdy.rampCancelled = s.rampCancelled := rfl
@[simp] theorem State.pollDrdy_rampPasses : s.pollDrdy.rampPasses = s.rampPasses := rfl
@[simp] theorem State.pollDrdy_latchLevel : s.pollDrdy.latchLevel = s.latchLevel := rfl
@[simp] theorem State.pollDrdy_cfg : s.pollDrdy.cfg = s.cfg := rfl
@[simp] theorem State.pollDrdy_log : s.pollDrdy.log = .readLevel .drdy s.levelNow :: s.log := rfl
@[simp] theorem State.pollDrdy_hostQueue : s.pollDrdy.hostQueue = s.hostQueue := rfl
@[simp] theorem State.pollDrdy_signals : s.pollDrdy.signals = s.signals := rfl
@[simp] theorem State.pollDrdy_rxAnswers : s.pollDrdy.rxAnswers = s.rxAnswers := rfl
@[simp] theorem State.pollDrdy_levelAnswers : s.pollDrdy.levelAnswers = s.levelAnswers.tail := rfl
@[simp] theorem State.pollDrdy_freeCount : s.pollDrdy.freeCount = s.freeCount + 1 := rfl
@[simp] theorem State.pollDrdy_chips :
    s.pollDrdy.chips = s.chips.observe s.cfg (.readLevel .drdy s.levelNow) := rfl

/-! ### `State.setLatch` -/

@[simp] theorem State.setLatch_seqpos (lvl : Level) : (s.setLatch lvl).seqpos = s.seqpos := rfl
@[simp] theorem State.setLatch_enabled (lvl : Level) : (s.setLatch lvl).enabled = s.enabled := rfl
@[simp] theorem State.setLatch_adcCode (lvl : Level) : (s.setLatch lvl).adcCode = s.adcCode := rfl
@[simp] theorem State.setLatch_adcVoltage (lvl : Level) : (s.setLatch lvl).adcVoltage = s.adcVoltage := rfl
@[simp] theorem State.setLatch_adcState (lvl : Level) : (s.setLatch lvl).adcState = s.adcState := rfl
@[simp] theorem State.setLatch_dac (lvl : Level) : (s.setLatch lvl).dac = s.dac := rfl
@[simp] theorem State.setLatch_lastErr (lvl : Level) : (s.setLatch lvl).lastErr = s.lastErr := rfl
@[simp] theorem State.setLatch_rampState (lvl : Level) : (s.setLatch lvl).rampState = s.rampState := rfl
@[simp] theorem State.setLatch_cancelReq (lvl : Level) : (s.setLatch lvl).cancelReq = s.cancelReq := rfl
@[simp] theorem State.setLatch_rampStepsDone (lvl : Level) : (s.setLatch lvl).rampStepsDone = s.rampStepsDone := rfl
@[simp] theorem State.setLatch_rampCancelled (lvl : Level) : (s.setLatch lvl).rampCancelled = s.rampCancelled := rfl
@[simp] theorem State.setLatch_rampPasses (lvl : Level) : (s.setLatch lvl).rampPasses = s.rampPasses := rfl
@[simp] theorem State.setLatch_latchLevel (lvl : Level) : (s.setLatch lvl).latchLevel = some lvl := rfl
@[simp] theorem State.setLatch_cfg (lvl : Level) : (s.setLatch lvl).cfg = s.cfg := rfl
@[simp] theorem State.setLatch_log (lvl : Level) : (s.setLatch lvl).log = .setLevel .latch lvl :: s.log := rfl
@[simp] theorem State.setLatch_hostQueue (lvl : Level) : (s.setLatch lvl).hostQueue = s.hostQueue := rfl
@[simp] theorem State.setLatch_signals (lvl : Level) : (s.setLatch lvl).signals = s.signals := rfl
@[simp] theorem State.setLatch_rxAnswers (lvl : Level) : (s.setLatch lvl).rxAnswers = s.rxAnswers := rfl
@[simp] theorem State.setLatch_levelAnswers (lvl : Level) : (s.setLatch lvl).levelAnswers = s.levelAnswers := rfl
@[simp] theorem State.setLatch_freeCount (lvl : Level) : (s.setLatch lvl).freeCount = s.freeCount := rfl
@[simp] theorem State.setLatch_chips (lvl : Level) :
    (s.setLatch lvl).chips = s.chips.observe s.cfg (.setLevel .latch lvl) := rfl

/-! ### `State.setDirection` -/

@[simp] theorem State.setDirection_seqpos (pin : Pin) (mode : PinMode) :
    (s.setDirection pin mode).seqpos = s.seqpos := rfl
@[simp] theorem State.setDirection_enabled (pin : Pin) (mode : PinMode) :
    (s.setDirection pin mode).enabled = s.enabled := rfl
@[simp] theorem State.setDirection_adcCode (pin : Pin) (mode : PinMode) :
    (s.setDirection pin mode).adcCode = s.adcCode := rfl
@[simp] theorem State.setDirection_adcVoltage (pin : Pin) (mode : PinMode) :
    (s.setDirection pin mode).adcVoltage = s.adcVoltage := rfl
@[simp] theorem State.setDirection_adcState (pin : Pin) (mode : PinMode) :
    (s.setDirection pin mode).adcState = s.adcState := rfl
@[simp] theorem State.setDirection_dac (pin : Pin) (mode : PinMode) : (s.setDirection pin mode).dac = s.dac := rfl
@[simp] theorem State.setDirection_lastErr (pin : Pin) (mode : PinMode) :
    (s.setDirection pin mode).lastErr = s.lastErr := rfl
@[simp] theorem State.setDirection_rampState (pin : Pin) (mode : PinMode) :
    (s.setDirection pin mode).rampState = s.rampState := rfl
@[simp] theorem State.setDirection_cancelReq (pin : Pin) (mode : PinMode) :
    (s.setDirection pin mode).cancelReq = s.cancelReq := rfl
@[simp] theorem State.setDirection_rampStepsDone (pin : Pin) (mode : PinMode) :
    (s.setDirection pin mode).rampStepsDone = s.rampStepsDone := rfl
@[simp] theorem State.setDirection_rampCancelled (pin : Pin) (mode : PinMode) :
    (s.setDirection pin mode).rampCancelled = s.rampCancelled := rfl
@[simp] theorem State.setDirection_rampPasses (pin : Pin) (mode : PinMode) :
    (s.setDirection pin mode).rampPasses = s.rampPasses := rfl
@[simp] theorem State.setDirection_latchLevel (pin : Pin) (mode : PinMode) :
    (s.setDirection pin mode).latchLevel = s.latchLevel := rfl
@[simp] theorem State.setDirection_cfg (pin : Pin) (mode : PinMode) : (s.setDirection pin mode).cfg = s.cfg := rfl
@[simp] theorem State.setDirection_log (pin : Pin) (mode : PinMode) :
    (s.setDirection pin mode).log = .setDirection pin mode :: s.log := rfl
@[simp] theorem State.setDirection_hostQueue (pin : Pin) (mode : PinMode) :
    (s.setDirection pin mode).hostQueue = s.hostQueue := rfl
@[simp] theorem State.setDirection_signals (pin : Pin) (mode : PinMode) :
    (s.setDirection pin mode).signals = s.signals := rfl
@[simp] theorem State.setDirection_rxAnswers (pin : Pin) (mode : PinMode) :
    (s.setDirection pin mode).rxAnswers = s.rxAnswers := rfl
@[simp] theorem State.setDirection_levelAnswers (pin : Pin) (mode : PinMode) :
    (s.setDirection pin mode).levelAnswers = s.levelAnswers := rfl
@[simp] theorem State.setDirection_freeCount (pin : Pin) (mode : PinMode) :
    (s.setDirection pin mode).freeCount = s.freeCount := rfl
@[simp] theorem State.setDirection_chips (pin : Pin) (mode : PinMode) :
    (s.setDirection pin mode).chips = s.chips := rfl

/-! ### `State.sleep` -/

@[simp] theorem State.sleep_seqpos (ms : BitVec 32) : (s.sleep ms).seqpos = s.seqpos := rfl
@[simp] theorem State.sleep_enabled (ms : BitVec 32) : (s.sleep ms).enabled = s.enabled := rfl
@[simp] theorem State.sleep_adcCode (ms : BitVec 32) : (s.sleep ms).adcCode = s.adcCode := rfl
@[simp] theorem State.sleep_adcVoltage (ms : BitVec 32) : (s.sleep ms).adcVoltage = s.adcVoltage := rfl
@[simp] theorem State.sleep_adcState (ms : BitVec 32) : (s.sleep ms).adcState = s.adcState := rfl
@[simp] theorem State.sleep_dac (ms : BitVec 32) : (s.sleep ms).dac = s.dac := rfl
@[simp] theorem State.sleep_lastErr (ms : BitVec 32) : (s.sleep ms).lastErr = s.lastErr := rfl
@[simp] theorem State.sleep_rampState (ms : BitVec 32) : (s.sleep ms).rampState = s.rampState := rfl
@[simp] theorem State.sleep_cancelReq (ms : BitVec 32) : (s.sleep ms).cancelReq = s.cancelReq := rfl
@[simp] theorem State.sleep_rampStepsDone (ms : BitVec 32) : (s.sleep ms).rampStepsDone = s.rampStepsDone := rfl
@[simp] theorem State.sleep_rampCancelled (ms : BitVec 32) : (s.sleep ms).rampCancelled = s.rampCancelled := rfl
@[simp] theorem State.sleep_rampPasses (ms : BitVec 32) : (s.sleep ms).rampPasses = s.rampPasses := rfl
@[simp] theorem State.sleep_latchLevel (ms : BitVec 32) : (s.sleep ms).latchLevel = s.latchLevel := rfl
@[simp] theorem State.sleep_cfg (ms : BitVec 32) : (s.sleep ms).cfg = s.cfg := rfl
@[simp] theorem State.sleep_log (ms : BitVec 32) : (s.sleep ms).log = .sleep ms :: s.log := rfl
@[simp] theorem State.sleep_hostQueue (ms : BitVec 32) : (s.sleep ms).hostQueue = s.hostQueue := rfl
@[simp] theorem State.sleep_signals (ms : BitVec 32) : (s.sleep ms).signals = s.signals := rfl
@[simp] theorem State.sleep_rxAnswers (ms : BitVec 32) : (s.sleep ms).rxAnswers = s.rxAnswers := rfl
@[simp] theorem State.sleep_levelAnswers (ms : BitVec 32) : (s.sleep ms).levelAnswers = s.levelAnswers := rfl
@[simp] theorem State.sleep_freeCount (ms : BitVec 32) : (s.sleep ms).freeCount = s.freeCount := rfl
@[simp] theorem State.sleep_chips (ms : BitVec 32) : (s.sleep ms).chips = s.chips := rfl

/-! ### `State.emit` -/

@[simp] theorem State.emit_seqpos (r : CaptureRecord) : (s.emit r).seqpos = s.seqpos := rfl
@[simp] theorem State.emit_enabled (r : CaptureRecord) : (s.emit r).enabled = s.enabled := rfl
@[simp] theorem State.emit_adcCode (r : CaptureRecord) : (s.emit r).adcCode = s.adcCode := rfl
@[simp] theorem State.emit_adcVoltage (r : CaptureRecord) : (s.emit r).adcVoltage = s.adcVoltage := rfl
@[simp] theorem State.emit_adcState (r : CaptureRecord) : (s.emit r).adcState = s.adcState := rfl
@[simp] theorem State.emit_dac (r : CaptureRecord) : (s.emit r).dac = s.dac := rfl
@[simp] theorem State.emit_lastErr (r : CaptureRecord) : (s.emit r).lastErr = s.lastErr := rfl
@[simp] theorem State.emit_rampState (r : CaptureRecord) : (s.emit r).rampState = s.rampState := rfl
@[simp] theorem State.emit_cancelReq (r : CaptureRecord) : (s.emit r).cancelReq = s.cancelReq := rfl
@[simp] theorem State.emit_rampStepsDone (r : CaptureRecord) : (s.emit r).rampStepsDone = s.rampStepsDone := rfl
@[simp] theorem State.emit_rampCancelled (r : CaptureRecord) : (s.emit r).rampCancelled = s.rampCancelled := rfl
@[simp] theorem State.emit_rampPasses (r : CaptureRecord) : (s.emit r).rampPasses = s.rampPasses := rfl
@[simp] theorem State.emit_latchLevel (r : CaptureRecord) : (s.emit r).latchLevel = s.latchLevel := rfl
@[simp] theorem State.emit_cfg (r : CaptureRecord) : (s.emit r).cfg = s.cfg := rfl
@[simp] theorem State.emit_log (r : CaptureRecord) : (s.emit r).log = .emit r :: s.log := rfl
@[simp] theorem State.emit_hostQueue (r : CaptureRecord) : (s.emit r).hostQueue = s.hostQueue := rfl
@[simp] theorem State.emit_signals (r : CaptureRecord) : (s.emit r).signals = s.signals := rfl
@[simp] theorem State.emit_rxAnswers (r : CaptureRecord) : (s.emit r).rxAnswers = s.rxAnswers := rfl
@[simp] theorem State.emit_levelAnswers (r : CaptureRecord) : (s.emit r).levelAnswers = s.levelAnswers := rfl
@[simp] theorem State.emit_freeCount (r : CaptureRecord) : (s.emit r).freeCount = s.freeCount := rfl
@[simp] theorem State.emit_chips (r : CaptureRecord) : (s.emit r).chips = s.chips := rfl

/-! ### `State.complete` -/

@[simp] theorem State.complete_seqpos (err : Err) (value : Value) : (s.complete err value).seqpos = .idle := rfl
@[simp] theorem State.complete_enabled (err : Err) (value : Value) : (s.complete err value).enabled = s.enabled := rfl
@[simp] theorem State.complete_adcCode (err : Err) (value : Value) : (s.complete err value).adcCode = s.adcCode := rfl
@[simp] theorem State.complete_adcVoltage (err : Err) (value : Value) :
    (s.complete err value).adcVoltage = s.adcVoltage := rfl
@[simp] theorem State.complete_adcState (err : Err) (value : Value) :
    (s.complete err value).adcState = s.adcState := rfl
@[simp] theorem State.complete_dac (err : Err) (value : Value) : (s.complete err value).dac = s.dac := rfl
@[simp] theorem State.complete_lastErr (err : Err) (value : Value) : (s.complete err value).lastErr = err.code := rfl
@[simp] theorem State.complete_rampState (err : Err) (value : Value) :
    (s.complete err value).rampState = s.rampState := rfl
@[simp] theorem State.complete_cancelReq (err : Err) (value : Value) :
    (s.complete err value).cancelReq = s.cancelReq := rfl
@[simp] theorem State.complete_rampStepsDone (err : Err) (value : Value) :
    (s.complete err value).rampStepsDone = s.rampStepsDone := rfl
@[simp] theorem State.complete_rampCancelled (err : Err) (value : Value) :
    (s.complete err value).rampCancelled = s.rampCancelled := rfl
@[simp] theorem State.complete_rampPasses (err : Err) (value : Value) :
    (s.complete err value).rampPasses = s.rampPasses := rfl
@[simp] theorem State.complete_latchLevel (err : Err) (value : Value) :
    (s.complete err value).latchLevel = s.latchLevel := rfl
@[simp] theorem State.complete_cfg (err : Err) (value : Value) : (s.complete err value).cfg = s.cfg := rfl
@[simp] theorem State.complete_log (err : Err) (value : Value) :
    (s.complete err value).log = .complete err value :: s.log := rfl
@[simp] theorem State.complete_hostQueue (err : Err) (value : Value) :
    (s.complete err value).hostQueue = s.hostQueue := rfl
@[simp] theorem State.complete_signals (err : Err) (value : Value) : (s.complete err value).signals = s.signals := rfl
@[simp] theorem State.complete_rxAnswers (err : Err) (value : Value) :
    (s.complete err value).rxAnswers = s.rxAnswers := rfl
@[simp] theorem State.complete_levelAnswers (err : Err) (value : Value) :
    (s.complete err value).levelAnswers = s.levelAnswers := rfl
@[simp] theorem State.complete_freeCount (err : Err) (value : Value) :
    (s.complete err value).freeCount = s.freeCount := rfl
@[simp] theorem State.complete_chips (err : Err) (value : Value) : (s.complete err value).chips = s.chips := rfl

/-! ### `State.pause` -/

@[simp] theorem State.pause_seqpos (i : Instr) (k : Nat) (p : Point) : (s.pause i k p).seqpos = .busy i k p := rfl
@[simp] theorem State.pause_enabled (i : Instr) (k : Nat) (p : Point) : (s.pause i k p).enabled = s.enabled := rfl
@[simp] theorem State.pause_adcCode (i : Instr) (k : Nat) (p : Point) : (s.pause i k p).adcCode = s.adcCode := rfl
@[simp] theorem State.pause_adcVoltage (i : Instr) (k : Nat) (p : Point) :
    (s.pause i k p).adcVoltage = s.adcVoltage := rfl
@[simp] theorem State.pause_adcState (i : Instr) (k : Nat) (p : Point) : (s.pause i k p).adcState = s.adcState := rfl
@[simp] theorem State.pause_dac (i : Instr) (k : Nat) (p : Point) : (s.pause i k p).dac = s.dac := rfl
@[simp] theorem State.pause_lastErr (i : Instr) (k : Nat) (p : Point) : (s.pause i k p).lastErr = s.lastErr := rfl
@[simp] theorem State.pause_rampState (i : Instr) (k : Nat) (p : Point) :
    (s.pause i k p).rampState = s.rampState := rfl
@[simp] theorem State.pause_cancelReq (i : Instr) (k : Nat) (p : Point) :
    (s.pause i k p).cancelReq = s.cancelReq := rfl
@[simp] theorem State.pause_rampStepsDone (i : Instr) (k : Nat) (p : Point) :
    (s.pause i k p).rampStepsDone = s.rampStepsDone := rfl
@[simp] theorem State.pause_rampCancelled (i : Instr) (k : Nat) (p : Point) :
    (s.pause i k p).rampCancelled = s.rampCancelled := rfl
@[simp] theorem State.pause_rampPasses (i : Instr) (k : Nat) (p : Point) :
    (s.pause i k p).rampPasses = s.rampPasses := rfl
@[simp] theorem State.pause_latchLevel (i : Instr) (k : Nat) (p : Point) :
    (s.pause i k p).latchLevel = s.latchLevel := rfl
@[simp] theorem State.pause_cfg (i : Instr) (k : Nat) (p : Point) : (s.pause i k p).cfg = s.cfg := rfl
@[simp] theorem State.pause_log (i : Instr) (k : Nat) (p : Point) : (s.pause i k p).log = s.log := rfl
@[simp] theorem State.pause_hostQueue (i : Instr) (k : Nat) (p : Point) :
    (s.pause i k p).hostQueue = s.hostQueue := rfl
@[simp] theorem State.pause_signals (i : Instr) (k : Nat) (p : Point) : (s.pause i k p).signals = s.signals := rfl
@[simp] theorem State.pause_rxAnswers (i : Instr) (k : Nat) (p : Point) :
    (s.pause i k p).rxAnswers = s.rxAnswers := rfl
@[simp] theorem State.pause_levelAnswers (i : Instr) (k : Nat) (p : Point) :
    (s.pause i k p).levelAnswers = s.levelAnswers := rfl
@[simp] theorem State.pause_freeCount (i : Instr) (k : Nat) (p : Point) :
    (s.pause i k p).freeCount = s.freeCount := rfl
@[simp] theorem State.pause_chips (i : Instr) (k : Nat) (p : Point) : (s.pause i k p).chips = s.chips := rfl

end Sys2Proof.Machine
end

