-- ==== Sys2Proof/Laws/Ops.lean ====
section
/-!
SUPPORT. One lemma per shared operation: everything it can do. Proofs cite these instead of unfolding the operation.
-/

namespace Sys2Proof.Machine

/-! ### Running an operation -/

theorem pointOf_idle {i : Instr} {s : State} (h : s.seqpos = .idle) : s.pointOf i = some (0, .start) := by
  simp [State.pointOf, h]

theorem pointOf_busy {i : Instr} {s : State} {k : Nat} {p : Point} (h : s.seqpos = .busy i k p) :
    s.pointOf i = some (k, p) := by
  simp [State.pointOf, h]

/-- Where an operation stands: at its start on an idle block, or at the locals of its own position. -/
theorem pointOf_cases {i : Instr} {s : State} {k : Nat} {p : Point} (h : s.pointOf i = some (k, p)) :
    (s.seqpos = .idle ∧ k = 0 ∧ p = .start) ∨ s.seqpos = .busy i k p := by
  unfold State.pointOf at h
  split at h
  · next hs => cases h; exact .inl ⟨hs, rfl, rfl⟩
  · next hs =>
    split at h
    · next hj => cases h; cases hj; exact .inr hs
    · cases h
  · cases h

/-- An operation issued to an idle block runs from its start. -/
theorem running_idle {i : Instr} {s : State} {body : Nat → Point → State → Outcome} (h : s.seqpos = .idle) :
    running i s body = body 0 .start s := by
  simp [running, pointOf_idle h]

/-- An operation in progress runs from its locals. -/
theorem running_busy {i : Instr} {s : State} {k : Nat} {p : Point} {body : Nat → Point → State → Outcome}
    (h : s.seqpos = .busy i k p) : running i s body = body k p s := by
  simp [running, pointOf_busy h]

/-- If an operation answers a next state, it ran from its start on an idle block or from its own locals. -/
theorem running_next {i : Instr} {s t : State} {body : Nat → Point → State → Outcome}
    (h : running i s body = .next t) :
    (s.seqpos = .idle ∧ body 0 .start s = .next t) ∨ ∃ k p, s.seqpos = .busy i k p ∧ body k p s = .next t := by
  unfold running at h
  split at h
  · next k p hp =>
    rcases pointOf_cases hp with ⟨hs, rfl, rfl⟩ | hs
    · exact .inl ⟨hs, h⟩
    · exact .inr ⟨k, p, hs, h⟩
  · cases h

/-- An operation without events completes at once. -/
theorem completing_idle {i : Instr} {s : State} {err : Err} {value : Value} (h : s.seqpos = .idle) :
    completing i err value s = .next (s.complete err value) := by
  simp [completing, running_idle h]

/-- If an operation without events answers a next state, its `Complete` is the whole step. -/
theorem completing_next {i : Instr} {s t : State} {err : Err} {value : Value}
    (h : completing i err value s = .next t) : t = s.complete err value := by
  rcases running_next h with ⟨_, h⟩ | ⟨k, p, _, h⟩
  · cases h; rfl
  · cases p <;> first | cases h; rfl | cases h

/-! ### The answers of the environment -/

@[simp] theorem fitAnswer_length (n fresh : Nat) (bs : List Byte) : (fitAnswer n fresh bs).length = n := by
  induction n generalizing fresh bs with
  | zero => rfl
  | succ n ih => cases bs <;> simp [fitAnswer, ih]

theorem fitAnswer_self (fresh : Nat) (bs : List Byte) : fitAnswer bs.length fresh bs = bs := by
  induction bs generalizing fresh with
  | nil => rfl
  | cons b bs ih => simp [fitAnswer, ih]

/-- A transfer receives as many bytes as it sends (20 R62). -/
@[simp] theorem rxFor_length (n : Nat) (s : State) : (s.rxFor n).length = n := fitAnswer_length ..

/-- An answer of the right length is received as it is (20 R66). -/
theorem rxFor_answer {s : State} {rx : List Byte} {rest : List (List Byte)} (h : s.rxAnswers = rx :: rest) :
    s.rxFor rx.length = rx := by
  simp [State.rxFor, h, fitAnswer_self]

/-- The level read is the next answer (20 R66). -/
theorem levelNow_answer {s : State} {l : Level} {rest : List Level} (h : s.levelAnswers = l :: rest) :
    s.levelNow = l := by
  simp [State.levelNow, h]

/-! ### The chips see only transfers, the latch and the data-ready polls -/

@[simp] theorem observe_complete (cfg : Config) (chips : RefChips) (e : Err) (v : Value) :
    chips.observe cfg (.complete e v) = chips := rfl

@[simp] theorem observe_emit (cfg : Config) (chips : RefChips) (r : CaptureRecord) :
    chips.observe cfg (.emit r) = chips := rfl

@[simp] theorem observe_sleep (cfg : Config) (chips : RefChips) (ms : BitVec 32) :
    chips.observe cfg (.sleep ms) = chips := rfl

@[simp] theorem observe_pollDrdy (cfg : Config) (chips : RefChips) (l : Level) :
    chips.observe cfg (.readLevel .drdy l) = chips.sawDrdy l := rfl

@[simp] theorem sawDrdy_high (chips : RefChips) : chips.sawDrdy .high = chips := rfl

/-- A poll writes nothing of the chips but whether the ADC drives its line low (20 R83). -/
theorem sawDrdy_eq (chips : RefChips) (l : Level) :
    chips.sawDrdy l = { chips with drdyLow := chips.drdyLow || (l = .low && chips.adcDue ≠ []) } := by
  obtain ⟨_, _, _, due, _⟩ := chips
  cases due <;> cases l <;> simp [RefChips.sawDrdy]

@[simp] theorem sawDrdy_dac (chips : RefChips) (l : Level) : (chips.sawDrdy l).dac = chips.dac := by
  rw [sawDrdy_eq]

@[simp] theorem sawDrdy_adcReg (chips : RefChips) (l : Level) : (chips.sawDrdy l).adcReg = chips.adcReg := by
  rw [sawDrdy_eq]

@[simp] theorem sawDrdy_adcDue (chips : RefChips) (l : Level) : (chips.sawDrdy l).adcDue = chips.adcDue := by
  rw [sawDrdy_eq]

@[simp] theorem observe_setDirection (cfg : Config) (chips : RefChips) (p : Pin) (m : PinMode) :
    chips.observe cfg (.setDirection p m) = chips := rfl

/-- What a frame does to the ADC: the mode frame makes results due, a data-read frame delivers one, any other frame can
only write channel registers (20 R83). -/
theorem adcReceive_cases (cfg : Config) (bytes : List Byte) (chips : RefChips) :
    (bytes = cfg.adcModeFrame.toList ∧
      chips.adcReceive cfg bytes = { chips with adcDue := chips.adcEnabled, drdyLow := false }) ∨
    (bytes ≠ cfg.adcModeFrame.toList ∧ bytes.length = 4 ∧
      chips.adcReceive cfg bytes = { chips with adcDue := chips.adcDue.tail, drdyLow := false }) ∨
    (bytes ≠ cfg.adcModeFrame.toList ∧ bytes.length ≠ 4 ∧
      chips.adcReceive cfg bytes = { chips with adcReg := refAdcWriteAll bytes chips.adcReg }) := by
  by_cases hm : bytes = cfg.adcModeFrame.toList
  · exact .inl ⟨hm, if_pos hm⟩
  · by_cases hl : bytes.length = 4
    · exact .inr (.inl ⟨hm, hl, by rw [RefChips.adcReceive, if_neg hm, if_pos hl]⟩)
    · exact .inr (.inr ⟨hm, hl, by rw [RefChips.adcReceive, if_neg hm, if_neg hl]⟩)

/-! ### The decoder -/

/-- A frame with constant bytes decodes exactly when it has them (30 R92 to R94, R96 to R98). -/
theorem decodeConstant_instr {pattern bytes : List Byte} {i j : Instr} :
    decodeConstant pattern i bytes = .instr j ↔ bytes = pattern ∧ i = j := by
  unfold decodeConstant
  split <;> simp_all

@[simp] theorem decodeConstant_self (pattern : List Byte) (i : Instr) :
    decodeConstant pattern i pattern = .instr i := if_pos rfl

/-- An operation descriptor decodes to the instruction its opcode and record name (30 R99 to R101). -/
theorem decode_op {cfg : Config} {opcode : Byte} {operands : Operands} {fits : operands.fits opcode = true}
    {i : Instr} : decode cfg (.op opcode operands fits) = .instr i ↔ decodeOp opcode operands = some i := by
  simp only [decode]
  split <;> simp_all

/-- A record that an opcode gives a meaning to has the opcode's shape (30 R99, R101): leaving out the others leaves out
no operation. -/
theorem decodeOp_fits {opcode : Byte} {operands : Operands} {i : Instr} (h : decodeOp opcode operands = some i) :
    operands.fits opcode = true := by
  unfold decodeOp at h
  split at h
  all_goals first | (split at h <;> first | rfl | cases h) | cases h

/-! ### Drivers -/

/-- One round of the data-ready wait always answers a next state, at one of its three points (44 R193). -/
theorem pollStep_next (i : Instr) (k polls : Nat) (ready expired again : Point) (s : State) :
    ∃ p, (p = ready ∨ p = expired ∨ p = again) ∧
      pollStep i k polls ready expired again s = .next (s.pollDrdy.pause i (k + 1) p) := by
  refine ⟨_, ?_, rfl⟩
  cases s.levelNow
  · exact .inl rfl
  · by_cases h : timedOut s.cfg polls = true
    · exact .inr (.inl (if_pos h))
    · exact .inr (.inr (if_neg h))

/-- The round that reads low is the last (44 R193). -/
theorem pollStep_low {i : Instr} {k polls : Nat} {ready expired again : Point} {s : State}
    (h : s.levelNow = .low) :
    pollStep i k polls ready expired again s = .next (s.pollDrdy.pause i (k + 1) ready) := by
  simp [pollStep, h]

/-- A round that reads high goes on unless it was the last read allowed (44 R193). -/
theorem pollStep_high {i : Instr} {k polls : Nat} {ready expired again : Point} {s : State}
    (h : s.levelNow = .high) :
    pollStep i k polls ready expired again s =
      .next (s.pollDrdy.pause i (k + 1) (if timedOut s.cfg polls then expired else again)) := by
  simp [pollStep, h]

/-- What skipping the overranges finds: nothing in range, or the first channel in range with the rest after it; the
error is kept, or is the first overrange (46 R232, R234, R239). -/
theorem skipOverrange_cases (volts : DacChan → Volts) (err : Err) (todo : List DacChan) :
    ((skipOverrange volts err todo).1 = err ∨
      (err = .none ∧ (skipOverrange volts err todo).1 = .voltageOverrange)) ∧
    ((skipOverrange volts err todo).2 = none ∧ (∀ c ∈ todo, overrange (volts c) = true) ∨
      ∃ before c rest, (skipOverrange volts err todo).2 = some (c, rest) ∧ todo = before ++ c :: rest ∧
        overrange (volts c) = false ∧ ∀ b ∈ before, overrange (volts b) = true) := by
  induction todo generalizing err with
  | nil => exact ⟨.inl rfl, .inl ⟨rfl, by simp⟩⟩
  | cons c rest ih =>
    by_cases h : overrange (volts c) = true
    · have hs : skipOverrange volts err (c :: rest) =
          skipOverrange volts (err.keepFirst .voltageOverrange) rest := by simp [skipOverrange, h]
      rw [hs]
      obtain ⟨he, hr⟩ := ih (err.keepFirst .voltageOverrange)
      refine ⟨?_, ?_⟩
      · by_cases hn : err = .none
        · subst hn
          rcases he with he | ⟨he, _⟩
          · exact .inr ⟨rfl, by simpa [Err.keepFirst] using he⟩
          · exact absurd he (by decide)
        · rw [Err.keepFirst, if_neg hn] at he
          rcases he with he | ⟨he, _⟩
          · exact .inl (by rw [Err.keepFirst, if_neg hn]; exact he)
          · exact absurd he hn
      · rcases hr with ⟨hr, ha⟩ | ⟨before, d, rest', hr, rfl, hd, hb⟩
        · exact .inl ⟨hr, by simp [h]; exact ha⟩
        · exact .inr ⟨c :: before, d, rest', hr, rfl, hd, by simp [h]; exact hb⟩
    · have h' : overrange (volts c) = false := by simpa using h
      exact ⟨.inl (by simp [skipOverrange, h']), .inr ⟨[], c, rest, by simp [skipOverrange, h'], rfl, h', by simp⟩⟩

/-- A rejected plan is one without steps (46 R230). -/
theorem rampDeltas_none {plan : Plan} : rampDeltas plan = none ↔ plan.stepCount = 0 := by
  simp [rampDeltas]

/-- Priming makes the next write in range, or is done (46 R232). -/
theorem primeFrom_next {i : Instr} {v : Vector Volts 4} {primed : RampRegs → State → Outcome} {k : Nat}
    {regs : RampRegs} {todo : List DacChan} {s t : State} (h : primeFrom i v primed k regs todo s = .next t) :
    ∃ err, (err = regs.rampErr ∨ (regs.rampErr = .none ∧ err = .voltageOverrange)) ∧
      (primed { regs with rampErr := err } s = .next t ∨
       ∃ c rest, t = (s.writeDac c (codeOfVolts s.cfg.rounding v[c])).pause i (k + 1)
         (.primeWrote { regs with rampErr := err } rest)) := by
  have hs := (skipOverrange_cases (fun c => v[c]) regs.rampErr todo).1
  unfold primeFrom at h
  split at h
  · next err he => rw [he] at hs; exact ⟨err, hs, .inl h⟩
  · next err c rest he => rw [he] at hs; cases h; exact ⟨err, hs, .inr ⟨c, rest, rfl⟩⟩

/-- A step makes the next write in range, or lowers the latch (46 R234). -/
theorem stepFrom_next (i : Instr) (plan : Plan) (k : Nat) (regs : RampRegs) (todo : List DacChan) (s : State) :
    ∃ err, (err = regs.rampErr ∨ (regs.rampErr = .none ∧ err = .voltageOverrange)) ∧
      (stepFrom i plan k regs todo s =
          .next ((s.setLatch .low).pause i (k + 1) (.stepLowered { regs with rampErr := err })) ∨
       ∃ c rest, stepFrom i plan k regs todo s =
          .next ((s.writeDac c (codeOfVolts s.cfg.rounding (stepVoltage plan regs c))).pause i (k + 1)
            (.stepNext { regs with rampErr := err } rest))) := by
  have hs := (skipOverrange_cases (stepVoltage plan regs) regs.rampErr todo).1
  unfold stepFrom
  split
  · next err he => rw [he] at hs; exact ⟨err, hs, .inl rfl⟩
  · next err c rest he => rw [he] at hs; exact ⟨err, hs, .inr ⟨c, rest, rfl⟩⟩

/-! ### Frames -/

theorem writeBytes_eq (done data : List Byte) (pad : List Byte) (h : pad.length = data.length) :
    writeBytes (done ++ pad) done.length data = done ++ data := by
  induction data generalizing done pad with
  | nil => cases pad <;> simp_all [writeBytes]
  | cons b bs ih =>
    obtain _ | ⟨p, ps⟩ := pad
    · simp at h
    · have := ih (done ++ [b]) ps (by simpa using h)
      simpa [writeBytes, memWrite] using this

/-- Writing the bytes of a frame one by one gives the frame (41 R130). -/
theorem writeBytes_frame (data : List Byte) : writeBytes (List.replicate data.length 0) 0 data = data := by
  simpa using writeBytes_eq [] data (List.replicate data.length 0) (by simp)

/-! ### The host -/

/-- A quiet host changes nothing. -/
theorem takeSignal_quiet {s : State} (h : s.signals = []) : s.takeSignal = s := by
  simp [State.takeSignal, h]

end Sys2Proof.Machine
end

