-- ==== Sys2Proof/Laws/Drivers.lean ====
section
/-!
SUPPORT. The operations of the drivers and of the ramp: one lemma per field per update, and one lemma per shared
operation that says what it can do.
-/

namespace Sys2Proof.Machine

section Fields

variable (s : State)

/-! ### `State.sendMode` -/

@[simp] theorem State.sendMode_seqpos : s.sendMode.seqpos = s.seqpos := rfl
@[simp] theorem State.sendMode_enabled : s.sendMode.enabled = s.enabled := rfl
@[simp] theorem State.sendMode_adcCode : s.sendMode.adcCode = s.adcCode := rfl
@[simp] theorem State.sendMode_adcVoltage : s.sendMode.adcVoltage = s.adcVoltage := rfl
@[simp] theorem State.sendMode_adcState : s.sendMode.adcState = .modeSelected := rfl
@[simp] theorem State.sendMode_dac : s.sendMode.dac = s.dac := rfl
@[simp] theorem State.sendMode_lastErr : s.sendMode.lastErr = s.lastErr := rfl
@[simp] theorem State.sendMode_rampState : s.sendMode.rampState = s.rampState := rfl
@[simp] theorem State.sendMode_cancelReq : s.sendMode.cancelReq = s.cancelReq := rfl
@[simp] theorem State.sendMode_rampStepsDone : s.sendMode.rampStepsDone = s.rampStepsDone := rfl
@[simp] theorem State.sendMode_rampCancelled : s.sendMode.rampCancelled = s.rampCancelled := rfl
@[simp] theorem State.sendMode_rampPasses : s.sendMode.rampPasses = s.rampPasses := rfl
@[simp] theorem State.sendMode_latchLevel : s.sendMode.latchLevel = s.latchLevel := rfl
@[simp] theorem State.sendMode_cfg : s.sendMode.cfg = s.cfg := rfl
@[simp] theorem State.sendMode_log :
    s.sendMode.log = .transfer .adcSelect (oneBlock s.cfg.adcModeFrame.toList) false (s.rxFor 3) :: s.log := rfl
@[simp] theorem State.sendMode_hostQueue : s.sendMode.hostQueue = s.hostQueue := rfl
@[simp] theorem State.sendMode_signals : s.sendMode.signals = s.signals := rfl
@[simp] theorem State.sendMode_rxAnswers : s.sendMode.rxAnswers = s.rxAnswers.tail := rfl
@[simp] theorem State.sendMode_levelAnswers : s.sendMode.levelAnswers = s.levelAnswers := rfl
@[simp] theorem State.sendMode_freeCount : s.sendMode.freeCount = s.freeCount + 3 := rfl

/-! ### `State.readChannel` -/

@[simp] theorem State.readChannel_seqpos (c : AdcChan) : (s.readChannel c).seqpos = s.seqpos := rfl
@[simp] theorem State.readChannel_enabled (c : AdcChan) : (s.readChannel c).enabled = s.enabled := rfl
@[simp] theorem State.readChannel_adcCode (c : AdcChan) :
    (s.readChannel c).adcCode = s.adcCode.set c (some s.nextAdcCode) := rfl
@[simp] theorem State.readChannel_adcVoltage (c : AdcChan) :
    (s.readChannel c).adcVoltage = s.adcVoltage.set c (some (adcCodeToVoltage s.nextAdcCode)) := rfl
@[simp] theorem State.readChannel_adcState (c : AdcChan) : (s.readChannel c).adcState = .dataCaptured := rfl
@[simp] theorem State.readChannel_dac (c : AdcChan) : (s.readChannel c).dac = s.dac := rfl
@[simp] theorem State.readChannel_lastErr (c : AdcChan) : (s.readChannel c).lastErr = s.lastErr := rfl
@[simp] theorem State.readChannel_rampState (c : AdcChan) : (s.readChannel c).rampState = s.rampState := rfl
@[simp] theorem State.readChannel_cancelReq (c : AdcChan) : (s.readChannel c).cancelReq = s.cancelReq := rfl
@[simp] theorem State.readChannel_rampStepsDone (c : AdcChan) : (s.readChannel c).rampStepsDone = s.rampStepsDone := rfl
@[simp] theorem State.readChannel_rampCancelled (c : AdcChan) : (s.readChannel c).rampCancelled = s.rampCancelled := rfl
@[simp] theorem State.readChannel_rampPasses (c : AdcChan) : (s.readChannel c).rampPasses = s.rampPasses := rfl
@[simp] theorem State.readChannel_latchLevel (c : AdcChan) : (s.readChannel c).latchLevel = s.latchLevel := rfl
@[simp] theorem State.readChannel_cfg (c : AdcChan) : (s.readChannel c).cfg = s.cfg := rfl
@[simp] theorem State.readChannel_log (c : AdcChan) :
    (s.readChannel c).log = .transfer .adcSelect (oneBlock (dataReadPattern s.cfg)) false (s.rxFor 4) :: s.log := rfl
@[simp] theorem State.readChannel_hostQueue (c : AdcChan) : (s.readChannel c).hostQueue = s.hostQueue := rfl
@[simp] theorem State.readChannel_signals (c : AdcChan) : (s.readChannel c).signals = s.signals := rfl
@[simp] theorem State.readChannel_rxAnswers (c : AdcChan) : (s.readChannel c).rxAnswers = s.rxAnswers.tail := rfl
@[simp] theorem State.readChannel_levelAnswers (c : AdcChan) : (s.readChannel c).levelAnswers = s.levelAnswers := rfl
@[simp] theorem State.readChannel_freeCount (c : AdcChan) : (s.readChannel c).freeCount = s.freeCount + 4 := rfl

/-! ### `State.writeDac` -/

@[simp] theorem State.writeDac_seqpos (c : DacChan) (code : DacCode) : (s.writeDac c code).seqpos = s.seqpos := rfl
@[simp] theorem State.writeDac_enabled (c : DacChan) (code : DacCode) : (s.writeDac c code).enabled = s.enabled := rfl
@[simp] theorem State.writeDac_adcCode (c : DacChan) (code : DacCode) : (s.writeDac c code).adcCode = s.adcCode := rfl
@[simp] theorem State.writeDac_adcVoltage (c : DacChan) (code : DacCode) :
    (s.writeDac c code).adcVoltage = s.adcVoltage := rfl
@[simp] theorem State.writeDac_adcState (c : DacChan) (code : DacCode) :
    (s.writeDac c code).adcState = s.adcState := rfl
@[simp] theorem State.writeDac_dac (c : DacChan) (code : DacCode) :
    (s.writeDac c code).dac = s.dac.set c { s.dac[c] with lastCode := some code } := rfl
@[simp] theorem State.writeDac_lastErr (c : DacChan) (code : DacCode) : (s.writeDac c code).lastErr = s.lastErr := rfl
@[simp] theorem State.writeDac_rampState (c : DacChan) (code : DacCode) :
    (s.writeDac c code).rampState = s.rampState := rfl
@[simp] theorem State.writeDac_cancelReq (c : DacChan) (code : DacCode) :
    (s.writeDac c code).cancelReq = s.cancelReq := rfl
@[simp] theorem State.writeDac_rampStepsDone (c : DacChan) (code : DacCode) :
    (s.writeDac c code).rampStepsDone = s.rampStepsDone := rfl
@[simp] theorem State.writeDac_rampCancelled (c : DacChan) (code : DacCode) :
    (s.writeDac c code).rampCancelled = s.rampCancelled := rfl
@[simp] theorem State.writeDac_rampPasses (c : DacChan) (code : DacCode) :
    (s.writeDac c code).rampPasses = s.rampPasses := rfl
@[simp] theorem State.writeDac_latchLevel (c : DacChan) (code : DacCode) :
    (s.writeDac c code).latchLevel = s.latchLevel := rfl
@[simp] theorem State.writeDac_cfg (c : DacChan) (code : DacCode) : (s.writeDac c code).cfg = s.cfg := rfl
@[simp] theorem State.writeDac_log (c : DacChan) (code : DacCode) :
    (s.writeDac c code).log =
      .transfer (.sync c) (oneBlock (writeFrame s.cfg code).toList) false (s.rxFor 3) :: s.log := rfl
@[simp] theorem State.writeDac_hostQueue (c : DacChan) (code : DacCode) :
    (s.writeDac c code).hostQueue = s.hostQueue := rfl
@[simp] theorem State.writeDac_signals (c : DacChan) (code : DacCode) : (s.writeDac c code).signals = s.signals := rfl
@[simp] theorem State.writeDac_rxAnswers (c : DacChan) (code : DacCode) :
    (s.writeDac c code).rxAnswers = s.rxAnswers.tail := rfl
@[simp] theorem State.writeDac_levelAnswers (c : DacChan) (code : DacCode) :
    (s.writeDac c code).levelAnswers = s.levelAnswers := rfl
@[simp] theorem State.writeDac_freeCount (c : DacChan) (code : DacCode) :
    (s.writeDac c code).freeCount = s.freeCount + 3 := rfl

/-! ### `State.readDacBack` -/

@[simp] theorem State.readDacBack_seqpos (c : DacChan) : (s.readDacBack c).seqpos = s.seqpos := rfl
@[simp] theorem State.readDacBack_enabled (c : DacChan) : (s.readDacBack c).enabled = s.enabled := rfl
@[simp] theorem State.readDacBack_adcCode (c : DacChan) : (s.readDacBack c).adcCode = s.adcCode := rfl
@[simp] theorem State.readDacBack_adcVoltage (c : DacChan) : (s.readDacBack c).adcVoltage = s.adcVoltage := rfl
@[simp] theorem State.readDacBack_adcState (c : DacChan) : (s.readDacBack c).adcState = s.adcState := rfl
@[simp] theorem State.readDacBack_dac (c : DacChan) :
    (s.readDacBack c).dac = s.dac.set c { s.dac[c] with
      lastReadCode := some s.nextDacCode, lastReadVoltage := some (codeToVoltage s.nextDacCode) } := rfl
@[simp] theorem State.readDacBack_lastErr (c : DacChan) : (s.readDacBack c).lastErr = s.lastErr := rfl
@[simp] theorem State.readDacBack_rampState (c : DacChan) : (s.readDacBack c).rampState = s.rampState := rfl
@[simp] theorem State.readDacBack_cancelReq (c : DacChan) : (s.readDacBack c).cancelReq = s.cancelReq := rfl
@[simp] theorem State.readDacBack_rampStepsDone (c : DacChan) : (s.readDacBack c).rampStepsDone = s.rampStepsDone := rfl
@[simp] theorem State.readDacBack_rampCancelled (c : DacChan) : (s.readDacBack c).rampCancelled = s.rampCancelled := rfl
@[simp] theorem State.readDacBack_rampPasses (c : DacChan) : (s.readDacBack c).rampPasses = s.rampPasses := rfl
@[simp] theorem State.readDacBack_latchLevel (c : DacChan) : (s.readDacBack c).latchLevel = s.latchLevel := rfl
@[simp] theorem State.readDacBack_cfg (c : DacChan) : (s.readDacBack c).cfg = s.cfg := rfl
@[simp] theorem State.readDacBack_log (c : DacChan) :
    (s.readDacBack c).log = .transfer (.sync c) (oneBlock nullFrame.toList) false (s.rxFor 3) :: s.log := rfl
@[simp] theorem State.readDacBack_hostQueue (c : DacChan) : (s.readDacBack c).hostQueue = s.hostQueue := rfl
@[simp] theorem State.readDacBack_signals (c : DacChan) : (s.readDacBack c).signals = s.signals := rfl
@[simp] theorem State.readDacBack_rxAnswers (c : DacChan) : (s.readDacBack c).rxAnswers = s.rxAnswers.tail := rfl
@[simp] theorem State.readDacBack_levelAnswers (c : DacChan) : (s.readDacBack c).levelAnswers = s.levelAnswers := rfl
@[simp] theorem State.readDacBack_freeCount (c : DacChan) : (s.readDacBack c).freeCount = s.freeCount + 3 := rfl

/-! ### `State.beginRamp` -/

@[simp] theorem State.beginRamp_seqpos : s.beginRamp.seqpos = s.seqpos := rfl
@[simp] theorem State.beginRamp_enabled : s.beginRamp.enabled = s.enabled := rfl
@[simp] theorem State.beginRamp_adcCode : s.beginRamp.adcCode = s.adcCode := rfl
@[simp] theorem State.beginRamp_adcVoltage : s.beginRamp.adcVoltage = s.adcVoltage := rfl
@[simp] theorem State.beginRamp_adcState : s.beginRamp.adcState = s.adcState := rfl
@[simp] theorem State.beginRamp_dac : s.beginRamp.dac = s.dac := rfl
@[simp] theorem State.beginRamp_lastErr : s.beginRamp.lastErr = s.lastErr := rfl
@[simp] theorem State.beginRamp_rampState : s.beginRamp.rampState = .configured := rfl
@[simp] theorem State.beginRamp_cancelReq : s.beginRamp.cancelReq = s.cancelReq := rfl
@[simp] theorem State.beginRamp_rampStepsDone : s.beginRamp.rampStepsDone = 0 := rfl
@[simp] theorem State.beginRamp_rampCancelled : s.beginRamp.rampCancelled = false := rfl
@[simp] theorem State.beginRamp_rampPasses : s.beginRamp.rampPasses = 0 := rfl
@[simp] theorem State.beginRamp_latchLevel : s.beginRamp.latchLevel = s.latchLevel := rfl
@[simp] theorem State.beginRamp_cfg : s.beginRamp.cfg = s.cfg := rfl
@[simp] theorem State.beginRamp_log : s.beginRamp.log = s.log := rfl
@[simp] theorem State.beginRamp_hostQueue : s.beginRamp.hostQueue = s.hostQueue := rfl
@[simp] theorem State.beginRamp_signals : s.beginRamp.signals = s.signals := rfl
@[simp] theorem State.beginRamp_rxAnswers : s.beginRamp.rxAnswers = s.rxAnswers := rfl
@[simp] theorem State.beginRamp_levelAnswers : s.beginRamp.levelAnswers = s.levelAnswers := rfl
@[simp] theorem State.beginRamp_freeCount : s.beginRamp.freeCount = s.freeCount := rfl

/-! ### `State.primed` -/

@[simp] theorem State.primed_seqpos (r : RampState) : (s.primed r).seqpos = s.seqpos := rfl
@[simp] theorem State.primed_enabled (r : RampState) : (s.primed r).enabled = s.enabled := rfl
@[simp] theorem State.primed_adcCode (r : RampState) : (s.primed r).adcCode = s.adcCode := rfl
@[simp] theorem State.primed_adcVoltage (r : RampState) : (s.primed r).adcVoltage = s.adcVoltage := rfl
@[simp] theorem State.primed_adcState (r : RampState) : (s.primed r).adcState = s.adcState := rfl
@[simp] theorem State.primed_dac (r : RampState) : (s.primed r).dac = s.dac := rfl
@[simp] theorem State.primed_lastErr (r : RampState) : (s.primed r).lastErr = s.lastErr := rfl
@[simp] theorem State.primed_rampState (r : RampState) : (s.primed r).rampState = r := rfl
@[simp] theorem State.primed_cancelReq (r : RampState) : (s.primed r).cancelReq = s.cancelReq := rfl
@[simp] theorem State.primed_rampStepsDone (r : RampState) : (s.primed r).rampStepsDone = s.rampStepsDone := rfl
@[simp] theorem State.primed_rampCancelled (r : RampState) : (s.primed r).rampCancelled = s.rampCancelled := rfl
@[simp] theorem State.primed_rampPasses (r : RampState) : (s.primed r).rampPasses = s.rampPasses := rfl
@[simp] theorem State.primed_latchLevel (r : RampState) : (s.primed r).latchLevel = s.latchLevel := rfl
@[simp] theorem State.primed_cfg (r : RampState) : (s.primed r).cfg = s.cfg := rfl
@[simp] theorem State.primed_log (r : RampState) : (s.primed r).log = s.log := rfl
@[simp] theorem State.primed_hostQueue (r : RampState) : (s.primed r).hostQueue = s.hostQueue := rfl
@[simp] theorem State.primed_signals (r : RampState) : (s.primed r).signals = s.signals := rfl
@[simp] theorem State.primed_rxAnswers (r : RampState) : (s.primed r).rxAnswers = s.rxAnswers := rfl
@[simp] theorem State.primed_levelAnswers (r : RampState) : (s.primed r).levelAnswers = s.levelAnswers := rfl
@[simp] theorem State.primed_freeCount (r : RampState) : (s.primed r).freeCount = s.freeCount := rfl

/-! ### `State.endRamp` -/

@[simp] theorem State.endRamp_seqpos (e : Err) (c : Bool) (p : BitVec 32) : (s.endRamp e c p).seqpos = .idle := rfl
@[simp] theorem State.endRamp_enabled (e : Err) (c : Bool) (p : BitVec 32) :
    (s.endRamp e c p).enabled = s.enabled := rfl
@[simp] theorem State.endRamp_adcCode (e : Err) (c : Bool) (p : BitVec 32) :
    (s.endRamp e c p).adcCode = s.adcCode := rfl
@[simp] theorem State.endRamp_adcVoltage (e : Err) (c : Bool) (p : BitVec 32) :
    (s.endRamp e c p).adcVoltage = s.adcVoltage := rfl
@[simp] theorem State.endRamp_adcState (e : Err) (c : Bool) (p : BitVec 32) :
    (s.endRamp e c p).adcState = s.adcState := rfl
@[simp] theorem State.endRamp_dac (e : Err) (c : Bool) (p : BitVec 32) : (s.endRamp e c p).dac = s.dac := rfl
@[simp] theorem State.endRamp_lastErr (e : Err) (c : Bool) (p : BitVec 32) : (s.endRamp e c p).lastErr = e.code := rfl
@[simp] theorem State.endRamp_rampState (e : Err) (c : Bool) (p : BitVec 32) :
    (s.endRamp e c p).rampState = .complete := rfl
@[simp] theorem State.endRamp_cancelReq (e : Err) (c : Bool) (p : BitVec 32) :
    (s.endRamp e c p).cancelReq = false := rfl
@[simp] theorem State.endRamp_rampStepsDone (e : Err) (c : Bool) (p : BitVec 32) :
    (s.endRamp e c p).rampStepsDone = s.rampStepsDone := rfl
@[simp] theorem State.endRamp_rampCancelled (e : Err) (c : Bool) (p : BitVec 32) :
    (s.endRamp e c p).rampCancelled = s.rampCancelled := rfl
@[simp] theorem State.endRamp_rampPasses (e : Err) (c : Bool) (p : BitVec 32) :
    (s.endRamp e c p).rampPasses = s.rampPasses := rfl
@[simp] theorem State.endRamp_latchLevel (e : Err) (c : Bool) (p : BitVec 32) :
    (s.endRamp e c p).latchLevel = s.latchLevel := rfl
@[simp] theorem State.endRamp_cfg (e : Err) (c : Bool) (p : BitVec 32) : (s.endRamp e c p).cfg = s.cfg := rfl
@[simp] theorem State.endRamp_log (e : Err) (c : Bool) (p : BitVec 32) :
    (s.endRamp e c p).log = .complete e (.rampResult s.rampStepsDone c p) :: s.log := rfl
@[simp] theorem State.endRamp_hostQueue (e : Err) (c : Bool) (p : BitVec 32) :
    (s.endRamp e c p).hostQueue = s.hostQueue := rfl
@[simp] theorem State.endRamp_signals (e : Err) (c : Bool) (p : BitVec 32) :
    (s.endRamp e c p).signals = s.signals := rfl
@[simp] theorem State.endRamp_rxAnswers (e : Err) (c : Bool) (p : BitVec 32) :
    (s.endRamp e c p).rxAnswers = s.rxAnswers := rfl
@[simp] theorem State.endRamp_levelAnswers (e : Err) (c : Bool) (p : BitVec 32) :
    (s.endRamp e c p).levelAnswers = s.levelAnswers := rfl
@[simp] theorem State.endRamp_freeCount (e : Err) (c : Bool) (p : BitVec 32) :
    (s.endRamp e c p).freeCount = s.freeCount := rfl

/-! ### `State.countPass` -/

@[simp] theorem State.countPass_seqpos (pass : Nat) : (s.countPass pass).seqpos = s.seqpos := by
  unfold State.countPass; split <;> [rfl; split <;> rfl]
@[simp] theorem State.countPass_enabled (pass : Nat) : (s.countPass pass).enabled = s.enabled := by
  unfold State.countPass; split <;> [rfl; split <;> rfl]
@[simp] theorem State.countPass_adcCode (pass : Nat) : (s.countPass pass).adcCode = s.adcCode := by
  unfold State.countPass; split <;> [rfl; split <;> rfl]
@[simp] theorem State.countPass_adcVoltage (pass : Nat) : (s.countPass pass).adcVoltage = s.adcVoltage := by
  unfold State.countPass; split <;> [rfl; split <;> rfl]
@[simp] theorem State.countPass_adcState (pass : Nat) : (s.countPass pass).adcState = s.adcState := by
  unfold State.countPass; split <;> [rfl; split <;> rfl]
@[simp] theorem State.countPass_dac (pass : Nat) : (s.countPass pass).dac = s.dac := by
  unfold State.countPass; split <;> [rfl; split <;> rfl]
@[simp] theorem State.countPass_lastErr (pass : Nat) : (s.countPass pass).lastErr = s.lastErr := by
  unfold State.countPass; split <;> [rfl; split <;> rfl]
@[simp] theorem State.countPass_rampState (pass : Nat) : (s.countPass pass).rampState = s.rampState := by
  unfold State.countPass; split <;> [rfl; split <;> rfl]
@[simp] theorem State.countPass_cancelReq (pass : Nat) : (s.countPass pass).cancelReq = s.cancelReq := by
  unfold State.countPass; split <;> [rfl; split <;> rfl]
@[simp] theorem State.countPass_rampStepsDone (pass : Nat) : (s.countPass pass).rampStepsDone = s.rampStepsDone := by
  unfold State.countPass; split <;> [rfl; split <;> rfl]
@[simp] theorem State.countPass_rampCancelled (pass : Nat) : (s.countPass pass).rampCancelled = s.rampCancelled := by
  unfold State.countPass; split <;> [rfl; split <;> rfl]
@[simp] theorem State.countPass_latchLevel (pass : Nat) : (s.countPass pass).latchLevel = s.latchLevel := by
  unfold State.countPass; split <;> [rfl; split <;> rfl]
@[simp] theorem State.countPass_cfg (pass : Nat) : (s.countPass pass).cfg = s.cfg := by
  unfold State.countPass; split <;> [rfl; split <;> rfl]
@[simp] theorem State.countPass_log (pass : Nat) : (s.countPass pass).log = s.log := by
  unfold State.countPass; split <;> [rfl; split <;> rfl]
@[simp] theorem State.countPass_hostQueue (pass : Nat) : (s.countPass pass).hostQueue = s.hostQueue := by
  unfold State.countPass; split <;> [rfl; split <;> rfl]
@[simp] theorem State.countPass_signals (pass : Nat) : (s.countPass pass).signals = s.signals := by
  unfold State.countPass; split <;> [rfl; split <;> rfl]
@[simp] theorem State.countPass_rxAnswers (pass : Nat) : (s.countPass pass).rxAnswers = s.rxAnswers := by
  unfold State.countPass; split <;> [rfl; split <;> rfl]
@[simp] theorem State.countPass_levelAnswers (pass : Nat) : (s.countPass pass).levelAnswers = s.levelAnswers := by
  unfold State.countPass; split <;> [rfl; split <;> rfl]
@[simp] theorem State.countPass_freeCount (pass : Nat) : (s.countPass pass).freeCount = s.freeCount := by
  unfold State.countPass; split <;> [rfl; split <;> rfl]

end Fields

/-! ### Frames sent alone, readbacks, initialisation -/

/-- A frame sent alone is one transfer of an idle block (log 13). -/
theorem sendFrame_next {line : Line} {bytes : List Byte} {s t : State} (h : sendFrame line bytes s = .next t) :
    s.seqpos = .idle ∧ t = s.transfer line bytes := by
  unfold sendFrame at h
  split at h
  · next hs => cases h; exact ⟨hs, rfl⟩
  · cases h
  · cases h

theorem sendFrame_idle {line : Line} {bytes : List Byte} {s : State} (h : s.seqpos = .idle) :
    sendFrame line bytes s = .next (s.transfer line bytes) := by
  simp [sendFrame, h]

/-- A readback's next event: the request, the null frame, or the `Complete` (45 R215). -/
theorem readDac_next {i : Instr} {c : DacChan} {result : DacCode → Value} {k : Nat} {p : Point} {s t : State}
    (h : readDac i c result k p s = .next t) :
    (p = .start ∧ t = (s.transfer (.sync c) s.cfg.dacReadReq.toList).pause i (k + 1) .readRequested) ∨
    (p = .readRequested ∧ t = (s.readDacBack c).pause i (k + 1) (.finish .none (result s.nextDacCode))) ∨
    ∃ e v, p = .finish e v ∧ t = s.complete e v := by
  unfold readDac at h
  split at h
  · cases h; exact .inl ⟨rfl, rfl⟩
  · cases h; exact .inr (.inl ⟨rfl, rfl⟩)
  · next e v => cases h; exact .inr (.inr ⟨e, v, rfl, rfl⟩)
  · cases h

/-- The next event of `DAC_INIT_ALL` (45 R210). -/
theorem initNext_next {k : Nat} {todo : List DacChan} {s t : State} (h : initNext k todo s = .next t) :
    (todo = [] ∧ t = s.complete .none .unit) ∨
    ∃ c rest, todo = c :: rest ∧
      t = (s.transfer (.sync c) s.cfg.dacInitFrame.toList).pause .dacInitAll (k + 1) (.initNext rest) := by
  unfold initNext at h
  split at h
  · cases h; exact .inl ⟨rfl, rfl⟩
  · next c rest => cases h; exact .inr ⟨c, rest, rfl, rfl⟩

/-! ### Ramps -/

/-- Priming's next event after its first write (46 R232). -/
theorem resumePrime_next {i : Instr} {v : Vector Volts 4} {primed : RampRegs → State → Outcome} {k : Nat}
    {p : Point} {s t : State} (h : resumePrime i v primed k p s = .next t) :
    (∃ regs todo, p = .primeWrote regs todo ∧ t = (s.setLatch .low).pause i (k + 1) (.primeLowered regs todo)) ∨
    (∃ regs todo, p = .primeLowered regs todo ∧ t = (s.setLatch .high).pause i (k + 1) (.primeNext regs todo)) ∨
    ∃ regs todo, p = .primeNext regs todo ∧ primeFrom i v primed k regs todo s = .next t := by
  unfold resumePrime at h
  split at h
  · next regs todo => cases h; exact .inl ⟨regs, todo, rfl, rfl⟩
  · next regs todo => cases h; exact .inr (.inl ⟨regs, todo, rfl, rfl⟩)
  · next regs todo => exact .inr (.inr ⟨regs, todo, rfl, h⟩)
  · cases h

/-- A step's next event after its first (46 R234). -/
theorem resumeStep_next {i : Instr} {plan : Plan} {k : Nat} {p : Point} {s t : State}
    (h : resumeStep i plan k p s = .next t) :
    (∃ regs todo, p = .stepNext regs todo ∧ stepFrom i plan k regs todo s = .next t) ∨
    (∃ regs, p = .stepLowered regs ∧
      t = ({ s.setLatch .high with rampStepsDone := BitVec.ofNat 32 regs.step } : State).pause i (k + 1)
        (.stepRaised regs)) ∨
    ∃ regs, p = .stepRaised regs ∧ t = (s.sleep plan.stepDelay).pause i (k + 1) (.slept regs) := by
  unfold resumeStep at h
  split at h
  · next regs todo => exact .inl ⟨regs, todo, rfl, h⟩
  · next regs => cases h; exact .inr (.inl ⟨regs, rfl, rfl⟩)
  · next regs => cases h; exact .inr (.inr ⟨regs, rfl, rfl⟩)
  · cases h

/-- The boundary before a step: the end of the ramp, a cancel, or the step (46 R235, R236). -/
theorem stepBoundary_cases (i : Instr) (plan : Plan) (passes : BitVec 32) (k : Nat) (regs : RampRegs) (s : State) :
    (plan.stepCount.toNat < regs.step ∧
      stepBoundary i plan passes k regs s = .next (s.endRamp regs.rampErr s.rampCancelled passes)) ∨
    (regs.step ≤ plan.stepCount.toNat ∧ s.cancelBit = true ∧ stepBoundary i plan passes k regs s =
      .next (({ s with rampCancelled := true } : State).endRamp regs.rampErr true passes)) ∨
    (regs.step ≤ plan.stepCount.toNat ∧ s.cancelBit = false ∧ stepBoundary i plan passes k regs s =
      stepFrom i plan k regs (dacChansOf plan.activeDacMask) s) := by
  unfold stepBoundary
  by_cases h : plan.stepCount.toNat < regs.step
  · exact .inl ⟨h, if_pos h⟩
  · rw [if_neg h]
    by_cases hc : s.cancelBit = true
    · exact .inr (.inl ⟨Nat.le_of_not_lt h, hc, if_pos hc⟩)
    · exact .inr (.inr ⟨Nat.le_of_not_lt h, by simpa using hc, if_neg hc⟩)

/-- A full reading's next event after its mode frame (44 R197). -/
theorem resumePass_next {i : Instr} {atEnd onTimeout : Pass → State → Outcome} {k : Nat} {p : Point} {s t : State}
    (h : resumePass i atEnd onTimeout k p s = .next t) :
    (∃ pass, p = .passNext pass [] ∧ atEnd pass { s with adcState := .idle } = .next t) ∨
    (∃ pass c todo, p = .passNext pass (c :: todo) ∧
      pollStep i k 1 (.passReady pass c todo) (.passTimedOut pass) (.passPolling pass c todo 1)
        { s with adcState := .awaitingDataReady } = .next t) ∨
    (∃ pass c todo polls, p = .passPolling pass c todo polls ∧
      pollStep i k (polls + 1) (.passReady pass c todo) (.passTimedOut pass) (.passPolling pass c todo (polls + 1)) s =
        .next t) ∨
    (∃ pass c todo, p = .passReady pass c todo ∧
      t = (s.readChannel c).pause i (k + 1) (afterRead pass c s.nextAdcCode todo)) ∨
    (∃ regs pass c code voltage todo, p = .passCaptured regs pass c code voltage todo ∧
      t = (s.emit ⟨pass, c, code, voltage⟩).pause i (k + 1) (.passNext (.ramp regs pass) todo)) ∨
    ∃ pass, p = .passTimedOut pass ∧ onTimeout pass { s with adcState := .idle } = .next t := by
  unfold resumePass at h
  split at h
  · next pass => exact .inl ⟨pass, rfl, h⟩
  · next pass c todo => exact .inr (.inl ⟨pass, c, todo, rfl, h⟩)
  · next pass c todo polls => exact .inr (.inr (.inl ⟨pass, c, todo, polls, rfl, h⟩))
  · next pass c todo => cases h; exact .inr (.inr (.inr (.inl ⟨pass, c, todo, rfl, rfl⟩)))
  · next regs pass c code voltage todo =>
    cases h; exact .inr (.inr (.inr (.inr (.inl ⟨regs, pass, c, code, voltage, todo, rfl, rfl⟩))))
  · next pass => exact .inr (.inr (.inr (.inr (.inr ⟨pass, rfl, h⟩))))
  · cases h

/-! ### The host -/

/-- What an idle block takes from the host: an instruction or an illegal opcode, with its descriptor off the queue
(20 R77, 30 R105); bytes that are no frame are refused. -/
theorem fetch_cases (s : State) :
    (s.hostQueue = [] ∧ s.fetch = .wait) ∨
    ∃ d rest, s.hostQueue = d :: rest ∧
      ((∃ i, decode s.cfg d = .instr i ∧ s.fetch = .issue i { s with hostQueue := rest }) ∨
       (∃ o, decode s.cfg d = .illegalOpcode o ∧ s.fetch = .illegal { s with hostQueue := rest }) ∨
       (decode s.cfg d = .unknownFrame ∧ s.fetch = .refused .unknownFrame)) := by
  unfold State.fetch
  split
  · next h => exact .inl ⟨h, rfl⟩
  · next d rest h =>
    refine .inr ⟨d, rest, h, ?_⟩
    split
    · next i hd => exact .inl ⟨i, hd, rfl⟩
    · next o hd => exact .inr (.inl ⟨o, hd, rfl⟩)
    · next hd => exact .inr (.inr ⟨hd, rfl⟩)

/-- The host's signal before a step (10 R30, 70 R290). -/
theorem takeSignal_cases (s : State) :
    s.takeSignal = s ∨ ∃ rest, s.takeSignal = { s with signals := rest } ∨
      s.takeSignal = ({ s with signals := rest } : State).writeCancel ∨
      s.takeSignal = ({ s with signals := rest } : State).assertReset := by
  unfold State.takeSignal
  split
  · exact .inl rfl
  · next rest _ => exact .inr ⟨rest, .inl rfl⟩
  · next rest _ => exact .inr ⟨rest, .inr (.inl rfl)⟩
  · next rest _ => exact .inr ⟨rest, .inr (.inr rfl)⟩

end Sys2Proof.Machine
end

