-- ==== Sys2Proof/Laws/PerInstr.lean ====
section
/-!
SUPPORT. Statements made for every instruction, one lemma per constructor.
-/

namespace Sys2Proof.Laws.OpcodeInTable

open Sys2Proof Sys2Proof.Machine

/-- A host operation is named by an opcode of the map (30 R100); a wire frame has one of the lengths 3, 4 and 48
(30 R90). -/
def Statement (i : Instr) : Prop :=
  ∀ cfg, match encode cfg i with
    | .op opcode _ _ => i.isOperation = true ∧ opcode ∈ legalOpcodes
    | .frame _ _ bytes => i.isOperation = false ∧ bytes.length ∈ [3, 4, 48]

theorem buildFrame a b c : Statement (.buildFrame a b c) := fun _ => ⟨rfl, by decide⟩
theorem adcCfgEncode a b c d e : Statement (.adcCfgEncode a b c d e) := fun _ => ⟨rfl, by decide⟩
theorem adcCfgDecode a : Statement (.adcCfgDecode a) := fun _ => ⟨rfl, by decide⟩
theorem adcDisableAllEncode : Statement .adcDisableAllEncode := fun _ => ⟨rfl, by decide⟩
theorem dacV2c a : Statement (.dacV2c a) := fun _ => ⟨rfl, by decide⟩
theorem dacC2v a : Statement (.dacC2v a) := fun _ => ⟨rfl, by decide⟩
theorem dacWriteEncode a : Statement (.dacWriteEncode a) := fun _ => ⟨rfl, by decide⟩
theorem dacReadDecode a : Statement (.dacReadDecode a) := fun _ => ⟨rfl, by decide⟩
theorem adcCodeDecode a : Statement (.adcCodeDecode a) := fun _ => ⟨rfl, by decide⟩
theorem adcConfigureChannel a b c d e : Statement (.adcConfigureChannel a b c d e) := fun _ => ⟨rfl, by decide⟩
theorem adcDisableAll : Statement .adcDisableAll := fun _ => ⟨rfl, by decide⟩
theorem adcSelectMode : Statement .adcSelectMode := fun _ => ⟨rfl, by decide⟩
theorem adcWaitDrdy : Statement .adcWaitDrdy := fun _ => ⟨rfl, by decide⟩
theorem adcReadChannel a : Statement (.adcReadChannel a) := fun _ => ⟨rfl, by decide⟩
theorem adcFullReading : Statement .adcFullReading := fun _ => ⟨rfl, by decide⟩
theorem dacInitAll : Statement .dacInitAll := fun _ => ⟨rfl, by decide⟩
theorem dacSetVoltage a b c : Statement (.dacSetVoltage a b c) := fun _ => ⟨rfl, by decide⟩
theorem dacReadVoltage a : Statement (.dacReadVoltage a) := fun _ => ⟨rfl, by decide⟩
theorem dacReadRegister a : Statement (.dacReadRegister a) := fun _ => ⟨rfl, by decide⟩
theorem dacUpdateOutputs : Statement .dacUpdateOutputs := fun _ => ⟨rfl, by decide⟩
theorem rampPlan a : Statement (.rampPlan a) := fun _ => ⟨rfl, by decide⟩
theorem rampPrime a b : Statement (.rampPrime a b) := fun _ => ⟨rfl, by decide⟩
theorem rampSimple a : Statement (.rampSimple a) := fun _ => ⟨rfl, by decide⟩
theorem rampBuffered a : Statement (.rampBuffered a) := fun _ => ⟨rfl, by decide⟩
theorem readStatus : Statement .readStatus := fun _ => ⟨rfl, by decide⟩
theorem wireAdcChcfg a b c d e : Statement (.wireAdcChcfg a b c d e) := fun _ => ⟨rfl, .head _⟩
theorem wireAdcDisableAll : Statement .wireAdcDisableAll := fun _ => ⟨rfl, by decide⟩
theorem wireAdcMode : Statement .wireAdcMode := fun _ => ⟨rfl, .head _⟩
theorem wireAdcDataRead : Statement .wireAdcDataRead := fun _ => ⟨rfl, .tail _ (.head _)⟩
theorem wireDacWrite a b : Statement (.wireDacWrite a b) := fun _ => ⟨rfl, .head _⟩
theorem wireDacReadRequest a : Statement (.wireDacReadRequest a) := fun _ => ⟨rfl, .head _⟩
theorem wireDacReadNull a : Statement (.wireDacReadNull a) := fun _ => ⟨rfl, .head _⟩
theorem wireDacInit a : Statement (.wireDacInit a) := fun _ => ⟨rfl, .head _⟩
theorem wirePoison : Statement .wirePoison := fun _ => ⟨rfl, .head _⟩

end Sys2Proof.Laws.OpcodeInTable
end

