-- ==== Sys2Proof/Tests/Slice0.lean ====
section
/-!
SUPPORT. Tests of one step each, with the expected results of 95_test_vectors.md and of the rules' examples; the
refusals of WellFormed; words written out from the spec's encodings; and, for each statement of Obligations.lean
that has hypotheses, a state and operands that meet them (`witness_<statement>`).
-/

namespace Sys2Proof.Tests

open Sys2Proof Sys2Proof.Machine

-- Kernel evaluations one after another: in parallel they need a thread each.
set_option Elab.async false

/-! ### The parameters of 95_test_vectors.md and small states -/

/-- Parameter values of the vectors' kind: `DAC_WRITE_CTRL` = 0x10, frames that can be told apart. -/
def cfg0 : Config where
  dacWriteNibble := 0x1
  dacReadReq := ⟨0x90, 0x00, 0x00⟩
  dacInitFrame := ⟨0x20, 0x00, 0x02⟩
  adcModeFrame := ⟨0x01, 0x02, 0x03⟩
  adcDataReadCmd := 0x44
  ge := #v[1, 1, 1, 1]
  os := #v[0, 0, 0, 0]
  rounding := .halfAwayFromZero
  drdyTimeoutPolls := none
  cancelSupported := true

/-- The same with a timeout of `n` polls. -/
def cfgTimeout (n : Nat) : Config := { cfg0 with drdyTimeoutPolls := some n }

def chips0 : RefChips where
  dac := Vector.replicate 4 ⟨true, 0, 0, false, false⟩
  latchLow := false
  adcReg := Vector.replicate 16 0
  adcDue := []
  drdyLow := false

/-- An idle block with these parameters, nothing issued and no signal. -/
def idle (cfg : Config) : State :=
  { State.reset with
    cfg := cfg
    dac := #v[.reset cfg 0, .reset cfg 1, .reset cfg 2, .reset cfg 3]
    log := []
    chips := chips0 }

/-- An idle block whose environment has these answers. -/
def answering (cfg : Config) (levels : List Level) (rx : List (List Byte)) : State :=
  { idle cfg with levelAnswers := levels, rxAnswers := rx }

/-- An idle block with ADC channels 0 and 5 enabled and these answers. -/
def reading (cfg : Config) (levels : List Level) : State :=
  { answering cfg levels [] with enabled := ((Vector.replicate 16 false).set 0 true).set 5 true }

/-- The block at a point of an operation. -/
def at_ (cfg : Config) (i : Instr) (p : Point) : State := { idle cfg with seqpos := .busy i 1 p }

/-- The outcome is a next state that passes the check. -/
def nexts (o : Outcome) (check : State → Bool) : Bool :=
  match o with
  | .next t => check t
  | .fault _ | .refused _ => false

/-- The outcome is this `Complete` as its newest event. -/
def completes (o : Outcome) (err : Err) (value : Value) : Bool :=
  nexts o fun t => t.log.head? == some (.complete err value) && t.lastErr == err.code

/-- The outcome is a transfer of these bytes as its newest event. -/
def sends (o : Outcome) (line : Line) (bytes : List Byte) : Bool :=
  nexts o fun t =>
    match t.log with
    | .transfer l f hold _ :: _ => l == line && f == ⟨bytes.length, 1, bytes⟩ && !hold
    | _ => false

/-- A one-channel ramp plan on DAC channel 0, capturing ADC channel 0. -/
def plan0 (v w : Volts) (steps : BitVec 32) : Plan where
  activeDacMask := 0b0001
  vInitial := #v[v, 0, 0, 0]
  vFinal := #v[w, 0, 0, 0]
  stepCount := steps
  stepDelay := 10
  activeAdcMask := 0x0001

/-! ### WellFormed refuses -/

theorem test_wf_block_size_zero : Instr.WellFormed (.buildFrame 0 1 []) = false := by decide
theorem test_wf_block_count_zero : Instr.WellFormed (.buildFrame 1 0 []) = false := by decide
theorem test_wf_data_length : Instr.WellFormed (.buildFrame 3 1 [0x13, 0x80]) = false := by decide
/-- V-F6's product does not wrap. -/
theorem test_wf_product_exact : Instr.WellFormed (.buildFrame 65536 65536 []) = false := by decide
theorem test_wf_accepts : Instr.WellFormed (.buildFrame 3 1 [0x13, 0x80, 0x43]) = true ∧
    Instr.WellFormed (.wireAdcChcfg 15 true 7 15 16) = true := by decide

/-! ### Decoding (R91 to R101) -/

theorem test_decode_frame_ops :
    decodeOp 0x01 (.frameSpec 3 1 [1, 2, 3]) = some (.buildFrame 3 1 [1, 2, 3]) ∧
    decodeOp 0x02 (.channelConfig 3 1 0 2 3) = some (.adcCfgEncode 3 1 0 2 3) ∧
    decodeOp 0x03 (.bytes3 ⟨1, 2, 3⟩) = some (.adcCfgDecode ⟨1, 2, 3⟩) ∧
    decodeOp 0x04 .none = some .adcDisableAllEncode ∧
    decodeOp 0x05 (.volts 1) = some (.dacV2c 1) ∧
    decodeOp 0x06 (.code20 9) = some (.dacC2v 9) ∧
    decodeOp 0x07 (.code20 9) = some (.dacWriteEncode 9) ∧
    decodeOp 0x08 (.bytes3 ⟨1, 2, 3⟩) = some (.dacReadDecode ⟨1, 2, 3⟩) ∧
    decodeOp 0x09 (.bytes3 ⟨1, 2, 3⟩) = some (.adcCodeDecode ⟨1, 2, 3⟩) := ⟨rfl, rfl, rfl, rfl, rfl, rfl, rfl, rfl, rfl⟩

theorem test_decode_driver_ops :
    decodeOp 0x10 (.channelConfig 3 1 0 2 3) = some (.adcConfigureChannel 3 1 0 2 3) ∧
    decodeOp 0x11 .none = some .adcDisableAll ∧ decodeOp 0x12 .none = some .adcSelectMode ∧
    decodeOp 0x13 .none = some .adcWaitDrdy ∧ decodeOp 0x14 (.adcChannel 7) = some (.adcReadChannel 7) ∧
    decodeOp 0x15 .none = some .adcFullReading ∧ decodeOp 0x20 .none = some .dacInitAll ∧
    decodeOp 0x21 (.setVoltage 1 5 true) = some (.dacSetVoltage 1 5 true) ∧
    decodeOp 0x22 (.dacChannel 2) = some (.dacReadVoltage 2) ∧
    decodeOp 0x23 (.dacChannel 2) = some (.dacReadRegister 2) ∧
    decodeOp 0x24 .none = some .dacUpdateOutputs :=
  ⟨rfl, rfl, rfl, rfl, rfl, rfl, rfl, rfl, rfl, rfl, rfl⟩

theorem test_decode_ramp_ops :
    decodeOp 0x30 (.plan zeroPlan) = some (.rampPlan zeroPlan) ∧
    decodeOp 0x31 (.prime 5 #v[0, 1, 2, 3]) = some (.rampPrime 5 #v[0, 1, 2, 3]) ∧
    decodeOp 0x32 (.plan zeroPlan) = some (.rampSimple zeroPlan) ∧
    decodeOp 0x33 (.plan zeroPlan) = some (.rampBuffered zeroPlan) ∧
    decodeOp 0x40 .none = some .readStatus := ⟨rfl, rfl, rfl, rfl, rfl⟩

/-- R100's gaps are illegal. -/
theorem test_decode_rejects :
    decode cfg0 (.op 0x00 .none rfl) = .illegalOpcode 0x00 ∧ decode cfg0 (.op 0x0A .none rfl) = .illegalOpcode 0x0A ∧
    decode cfg0 (.op 0x25 .none rfl) = .illegalOpcode 0x25 ∧ decode cfg0 (.op 0x41 .none rfl) = .illegalOpcode 0x41 ∧
    decode cfg0 (.op 0xFF .none rfl) = .illegalOpcode 0xFF := ⟨rfl, rfl, rfl, rfl, rfl⟩

/-- A record of another shape stands in no descriptor (R99): the proof that it fits is missing. -/
theorem test_descriptor_shapes :
    Operands.fits 0x40 (.volts 0) = false ∧ Operands.fits 0x14 .none = false ∧ Operands.fits 0x22 (.adcChannel 0) = false ∧
    Operands.fits 0x14 (.adcChannel 0) = true ∧ Operands.fits 0x40 .none = true := by decide

/-- `0001 cccc e sss 00 ppppp nnnnn` (R91): V-A1 and V-A5's frames, bit by bit. -/
theorem test_decode_chcfg :
    decode cfg0 (.frame .adcChcfg .adcSelect [0b00010011, 0b10000000, 0b01000011]) =
      .instr (.wireAdcChcfg 3 true 0 2 3) ∧
    decode cfg0 (.frame .adcChcfg .adcSelect [0b00011111, 0b11110001, 0b11101110]) =
      .instr (.wireAdcChcfg 15 true 7 15 14) := by
  decide

/-- R103: payload bits 11:10 not 0, `p` = 16, `n` = 17: never written, so no CHCFG frame; `n` = 16 is one. -/
theorem test_decode_chcfg_rejects :
    decode cfg0 (.frame .adcChcfg .adcSelect [0x13, 0x8C, 0x43]) = .unknownFrame ∧
    decode cfg0 (.frame .adcChcfg .adcSelect [0x10, 0b10000010, 0b00000001]) = .unknownFrame ∧
    decode cfg0 (.frame .adcChcfg .adcSelect [0x10, 0b10000000, 0b00010001]) = .unknownFrame ∧
    decode cfg0 (.frame .adcChcfg .adcSelect [0x10, 0b10000000, 0b00010000]) = .instr (.wireAdcChcfg 0 true 0 0 16) := by
  decide

theorem test_decode_adc_frames :
    decode cfg0 (.frame .adcDisableAll .adcSelect disableAllPattern) = .instr .wireAdcDisableAll ∧
    decode cfg0 (.frame .adcMode .adcSelect [0x01, 0x02, 0x03]) = .instr .wireAdcMode ∧
    decode cfg0 (.frame .adcDataRead .adcSelect [0x44, 0x00, 0x00, 0x00]) = .instr .wireAdcDataRead ∧
    decode cfg0 (.frame .poison .adcSelect [0xFF, 0xFF, 0xFF]) = .instr .wirePoison ∧
    decode cfg0 (.frame .adcDataRead .adcSelect [0x44, 0x00, 0x00]) = .unknownFrame := by decide

/-- `WWWW dddd dddddddd dddddddd` (R95): V-D8's frame, bit by bit; then R96 and R97. -/
theorem test_decode_dac_frames :
    decode cfg0 (.frame .dacWrite (.sync 3) [0b00010000, 0b11001100, 0b11001101]) = .instr (.wireDacWrite 3 52429) ∧
    decode cfg0 (.frame .dacReadRequest (.sync 1) [0x90, 0x00, 0x00]) = .instr (.wireDacReadRequest 1) ∧
    decode cfg0 (.frame .dacReadNull (.sync 1) [0x00, 0x00, 0x00]) = .instr (.wireDacReadNull 1) ∧
    decode cfg0 (.frame .dacInit (.sync 0) [0x20, 0x00, 0x02]) = .instr (.wireDacInit 0) ∧
    decode cfg0 (.frame .dacWrite (.sync 0) [0x30, 0x00, 0x00]) = .unknownFrame ∧
    decode cfg0 (.frame .dacInit .adcSelect [0x20, 0x00, 0x02]) = .unknownFrame := by decide

/-- R90: the kind is told from what sent the frame, not from its bytes: a mode frame of FF FF FF is the mode frame. -/
theorem test_decode_kind_not_from_bytes :
    decode { cfg0 with adcModeFrame := poisonFrame } (.frame .adcMode .adcSelect [0xFF, 0xFF, 0xFF]) =
      .instr .wireAdcMode ∧
    decode { cfg0 with dacInitFrame := ⟨0x1C, 0xCC, 0xCD⟩ } (.frame .dacWrite (.sync 0) [0x1C, 0xCC, 0xCD]) =
      .instr (.wireDacWrite 0 0xCCCCD) := by decide

/-- Words of opcode_table.json. -/
theorem test_decode_table_words :
    decodeTableWord 8 0x24 = some .dacUpdateOutputs ∧ decodeTableWord 8 0x14 = some (.adcReadChannel 0) ∧
    decodeTableWord 8 0x41 = none ∧ decodeTableWord 24 0x138043 = some (.wireAdcChcfg 3 true 0 2 3) ∧
    decodeTableWord 24 0xFFFFFF = some .wirePoison ∧ decodeTableWord 24 0x000000 = some (.wireDacReadNull 0) :=
  ⟨rfl, rfl, rfl, rfl, rfl, rfl⟩

/-- The step runs a table word as the first instruction after reset. -/
theorem test_step_runs_fetch_word :
    nexts (step (State.reset.withFetchWord 8 0x24)) (fun t => t.log.head? == some (.setLevel .latch .low)) = true := by
  decide +kernel

/-! ### Text (R107 to R109) -/

theorem test_text_pseudo :
    assembleLine "DACWRITE,1,-2.5".toList = some (.dacSetVoltage 1 (-5 / 2) true) ∧
    assembleLine "GET_DAC:3".toList = some (.dacReadVoltage 3) ∧
    assembleLine "DAC_V2C,0.1".toList = some (.dacV2c (1 / 10)) := by decide +kernel

theorem test_text_refuses :
    assembleLine "DACWRITE,4,1".toList = none ∧ assembleLine "DACWRITE,0,1e3".toList = none ∧
    assembleLine "ADC_CONFIGURE_CHANNEL,3,1,0,2".toList = none ∧ assembleLine "NOP".toList = none := by
  decide +kernel

/-! ### Codecs -/

/-- V-F1, V-F4 (a product of 65), V-F7. -/
theorem test_build_frame :
    completes (exec (.buildFrame 3 1 [0x13, 0x80, 0x43]) (idle cfg0)) .none
      (.frame ⟨3, 1, [0x13, 0x80, 0x43]⟩) = true := by decide +kernel
theorem test_build_frame_capacity :
    completes (exec (.buildFrame 13 5 (List.replicate 65 0)) (idle cfg0)) .frameCapacityExceeded .unit = true := by
  decide +kernel

/-- V-A6. -/
theorem test_adc_cfg_encode :
    completes (exec (.adcCfgEncode 5 1 2 5 16) (idle cfg0)) .none (.bytes3 ⟨0x15, 0xA0, 0xB0⟩) = true := by
  decide +kernel
/-- V-A17, V-A20. -/
theorem test_adc_cfg_encode_errors :
    completes (exec (.adcCfgEncode 0 1 0 5 17) (idle cfg0)) .invalidInputPair (.bytes3 ⟨0xFF, 0xFF, 0xFF⟩) = true ∧
    completes (exec (.adcCfgEncode 0 1 0 99 16) (idle cfg0)) .invalidInput1 (.bytes3 ⟨0xFF, 0xFF, 0xFF⟩) = true := by
  decide +kernel

/-- V-A27; V-A22 and V-A24. -/
theorem test_adc_cfg_decode :
    completes (exec (.adcCfgDecode ⟨0x15, 0xA0, 0xB0⟩) (idle cfg0)) .none
      (.channelConfig ⟨true, 5, true, 2, 5, 16⟩) = true := by decide +kernel
theorem test_adc_cfg_decode_invalid :
    (unpack ⟨0x10, 0x8C, 0x01⟩).valid = false ∧ (unpack ⟨0x10, 0x82, 0x01⟩).valid = false ∧
    (unpack ⟨0x20, 0x80, 0x43⟩).valid = false ∧ (unpack ⟨0xFF, 0xFF, 0xFF⟩).valid = false := by decide

/-- V-A28. -/
theorem test_disable_all_encode :
    disableAllBytes.length = 48 ∧ disableAllBytes.take 3 = [0x10, 0x00, 0x01] ∧
    disableAllBytes.drop 45 = [0x1F, 0x00, 0x01] := by decide

/-- V-D9; V-D25. -/
theorem test_dac_v2c :
    completes (exec (.dacV2c (-1)) (idle cfg0)) .none (.code 996147) = true ∧
    completes (exec (.dacV2c (-1 / 1000000)) (idle cfg0)) .none (.code 0) = true := by decide +kernel
/-- V-D28, V-D29. -/
theorem test_dac_v2c_overrange :
    completes (exec (.dacV2c (10000001 / 1000000)) (idle cfg0)) .voltageOverrange (.code 999) = true ∧
    completes (exec (.dacV2c (-21 / 2)) (idle cfg0)) .voltageOverrange (.code 999) = true := by decide +kernel

/-- V-D6 and V-D27, by rounding mode. -/
theorem test_rounding_modes :
    codeOfVolts .halfAwayFromZero 5 = 262144 ∧ codeOfVolts .towardZero 5 = 262143 ∧
    codeOfVolts .halfToEven (5 / 524287) = 0 ∧ codeOfVolts .halfAwayFromZero (5 / 524287) = 1 := by decide +kernel

/-- V-D32, V-D33. -/
theorem test_dac_c2v :
    completes (exec (.dacC2v 524288) (idle cfg0)) .none (.volts (-10)) = true ∧
    completes (exec (.dacC2v 999) (idle cfg0)) .none (.volts (9990 / 524287)) = true := by decide +kernel

/-- V-D34. -/
theorem test_dac_write_encode :
    completes (exec (.dacWriteEncode 0x80000) (idle cfg0)) .none (.bytes3 ⟨0x18, 0x00, 0x00⟩) = true := by
  decide +kernel

/-- V-D36, V-D37. -/
theorem test_dac_read_decode :
    completes (exec (.dacReadDecode ⟨0x94, 0x00, 0x00⟩) (idle cfg0)) .none (.code 0x40000) = true ∧
    completes (exec (.dacReadDecode ⟨0xFF, 0xFF, 0xFF⟩) (idle cfg0)) .none (.code 0xFFFFF) = true := by decide +kernel

/-- V-I22. -/
theorem test_adc_code_decode :
    completes (exec (.adcCodeDecode ⟨0x40, 0x00, 0x00⟩) (idle cfg0)) .none (.reading 0x400000 (-25 / 2)) = true := by
  decide +kernel

/-! ### ADC driver -/

/-- V-I1; V-I3. -/
theorem test_adc_configure_channel :
    sends (exec (.adcConfigureChannel 3 1 0 2 3) (idle cfg0)) .adcSelect [0x13, 0x80, 0x43] = true ∧
    nexts (exec (.adcConfigureChannel 3 1 0 2 3) (idle cfg0)) (fun t => t.enabled[3]) = true := by decide +kernel
theorem test_adc_configure_channel_rejects :
    completes (exec (.adcConfigureChannel 5 0 9 2 3) (reading cfg0 [])) .invalidSetup .unit = true ∧
    nexts (exec (.adcConfigureChannel 5 0 9 2 3) (reading cfg0 [])) (fun t => t.enabled[5]) = true := by
  decide +kernel

/-- V-I4. -/
theorem test_adc_disable_all :
    nexts (exec .adcDisableAll (reading cfg0 [])) (fun t => t.enabled == Vector.replicate 16 false) = true := by
  decide +kernel

/-- V-I5. -/
theorem test_adc_select_mode :
    sends (exec .adcSelectMode (idle cfg0)) .adcSelect [0x01, 0x02, 0x03] = true ∧
    nexts (exec .adcSelectMode (idle cfg0)) (fun t => t.adcState == .modeSelected) = true := by decide +kernel

/-- V-I8: the only read allowed is high, so the timeout is next. -/
theorem test_adc_wait_drdy_timeout :
    nexts (exec .adcWaitDrdy (answering (cfgTimeout 1) [.high] []))
      (fun t => t.seqpos == .busy .adcWaitDrdy 1 .waitTimedOut) = true ∧
    completes (exec .adcWaitDrdy (at_ (cfgTimeout 1) .adcWaitDrdy .waitTimedOut)) .dataReadyTimeout .unit = true := by
  decide +kernel
/-- V-I6. -/
theorem test_adc_wait_drdy_low :
    nexts (exec .adcWaitDrdy (answering cfg0 [.low] []))
      (fun t => t.adcState == .awaitingDataReady && t.log.head? == some (.readLevel .drdy .low)) = true := by
  decide +kernel

/-- V-I11. -/
theorem test_adc_read_channel :
    sends (exec (.adcReadChannel 7) (answering cfg0 [] [[0xAA, 0x12, 0x34, 0x56]])) .adcSelect
      [0x44, 0x00, 0x00, 0x00] = true ∧
    nexts (exec (.adcReadChannel 7) (answering cfg0 [] [[0xAA, 0x12, 0x34, 0x56]])) (fun t =>
      t.adcCode[7] == some 0x123456 && t.adcVoltage[7] == some (-89944525 / 4194304) && t.adcCode[6] == none) = true := by
  decide +kernel

/-- V-I13's order: channel 5 follows channel 0. -/
theorem test_adc_full_reading :
    nexts (exec .adcFullReading (reading cfg0 []))
      (fun t => t.seqpos == .busy .adcFullReading 1 (.passNext (.reading []) [0, 5])) = true := by decide +kernel

/-! ### DAC driver -/

/-- V-O1. -/
theorem test_dac_init_all :
    sends (exec .dacInitAll (idle cfg0)) (.sync 0) [0x20, 0x00, 0x02] = true ∧
    sends (exec .dacInitAll (at_ cfg0 .dacInitAll (.initNext [3]))) (.sync 3) [0x20, 0x00, 0x02] = true := by
  decide +kernel

/-- V-O2; V-O5. -/
theorem test_dac_set_voltage :
    sends (exec (.dacSetVoltage 0 5 true) (idle cfg0)) (.sync 0) [0x14, 0x00, 0x00] = true ∧
    nexts (exec (.dacSetVoltage 0 5 true) (idle cfg0)) (fun t => t.dac[0].lastCode == some 262144) = true := by
  decide +kernel
theorem test_dac_set_voltage_overrange :
    completes (exec (.dacSetVoltage 3 (-10001 / 1000) true) (idle cfg0)) .voltageOverrange (.volts 999) = true := by
  decide +kernel

/-- V-O8. -/
theorem test_dac_read_voltage :
    nexts (exec (.dacReadVoltage 1)
      { answering cfg0 [] [[0x9C, 0x00, 0x00]] with seqpos := .busy (.dacReadVoltage 1) 1 .readRequested }) (fun t =>
      t.dac[1].lastReadCode == some 0xC0000 && t.dac[1].lastReadVoltage == some (-5) && t.dac[1].lastCode == none) = true := by
  decide +kernel

/-- R217's example. -/
theorem test_dac_read_register :
    nexts (exec (.dacReadRegister 2)
      { answering cfg0 [] [[0xF7, 0xFF, 0xFF]] with seqpos := .busy (.dacReadRegister 2) 1 .readRequested }) (fun t =>
      t.seqpos == .busy (.dacReadRegister 2) 2 (.finish .none (.code 0x7FFFF))) = true := by decide +kernel

/-- V-O7. -/
theorem test_dac_update_outputs :
    nexts (exec .dacUpdateOutputs (at_ cfg0 .dacUpdateOutputs .pulseLow)) (fun t =>
      t.latchLevel == some .high && t.log.head? == some (.setLevel .latch .high)) = true := by decide +kernel

/-! ### Ramps and status -/

/-- R231's example; V-R1. -/
theorem test_ramp_plan :
    completes (exec (.rampPlan (plan0 0 5 5)) (idle cfg0)) .none (.deltas #v[some 1, none, none, none]) = true := by
  decide +kernel
theorem test_ramp_plan_no_steps :
    completes (exec (.rampPlan (plan0 0 5 0)) (idle cfg0)) .invalidStepCount .unit = true := by decide +kernel

/-- R233's example: the first of the two priming writes; a mask of 0. -/
theorem test_ramp_prime :
    sends (exec (.rampPrime 0b0011 #v[1, -1, 0, 0]) (idle cfg0)) (.sync 0) [0x10, 0xCC, 0xCD] = true ∧
    completes (exec (.rampPrime 0 #v[1, -1, 0, 0]) (idle cfg0)) .none .unit = true := by decide +kernel

/-- V-R3: step 5 writes 5 V, after step 4's sleep. -/
theorem test_ramp_simple_step :
    sends (exec (.rampSimple (plan0 0 5 5))
      (at_ cfg0 (.rampSimple (plan0 0 5 5)) (.slept ⟨#v[some 1, none, none, none], 4, .none⟩)))
      (.sync 0) [0x14, 0x00, 0x00] = true := by decide +kernel
theorem test_ramp_simple_end :
    completes (exec (.rampSimple (plan0 0 5 5))
      (at_ cfg0 (.rampSimple (plan0 0 5 5)) (.slept ⟨#v[some 1, none, none, none], 5, .voltageOverrange⟩)))
      .voltageOverrange (.rampResult 0 false 0) = true := by decide +kernel

/-- V-R2: with one step the baseline pass ends the ramp. -/
theorem test_ramp_buffered_one_step :
    completes (exec (.rampBuffered (plan0 0 5 1)) (at_ cfg0 (.rampBuffered (plan0 0 5 1))
      (.passNext (.ramp ⟨#v[some 5, none, none, none], 0, .none⟩ 0) []))) .none (.rampResult 0 false 1) = true := by
  decide +kernel
/-- R240: the record of a pass. -/
theorem test_ramp_buffered_record :
    nexts (exec (.rampBuffered (plan0 0 5 2)) (at_ cfg0 (.rampBuffered (plan0 0 5 2))
      (.passCaptured ⟨#v[some 5, none, none, none], 1, .none⟩ 1 0 0x800000 0 []))) (fun t =>
      t.log.head? == some (.emit ⟨1, 0, 0x800000, 0⟩)) = true := by decide +kernel

/-- R250's example: `LAST_ERR` is reported, then 0. -/
theorem test_read_status :
    nexts (exec .readStatus { idle cfg0 with lastErr := 2 }) (fun t =>
      t.lastErr == 0 &&
      match t.log with
      | .complete .none (.status r) :: _ => r.lastErr == 2 && r.rampState == .idle
      | _ => false) = true := by decide +kernel

/-! ### Wire frames -/

theorem test_wire_adc :
    sends (exec (.wireAdcChcfg 5 true 2 5 16) (idle cfg0)) .adcSelect [0x15, 0xA0, 0xB0] = true ∧
    nexts (exec (.wireAdcChcfg 5 true 2 5 16) (idle cfg0)) (fun t => t.chips.adcReg[5] == 0xA0B0) = true ∧
    sends (exec .wireAdcDisableAll (idle cfg0)) .adcSelect disableAllPattern = true ∧
    sends (exec .wireAdcMode (idle cfg0)) .adcSelect [0x01, 0x02, 0x03] = true ∧
    sends (exec .wireAdcDataRead (idle cfg0)) .adcSelect [0x44, 0x00, 0x00, 0x00] = true := by decide +kernel

theorem test_wire_dac :
    sends (exec (.wireDacWrite 2 0x80000) (idle cfg0)) (.sync 2) [0x18, 0x00, 0x00] = true ∧
    nexts (exec (.wireDacWrite 2 0x80000) (idle cfg0)) (fun t =>
      t.chips.dac[2].reg == 0x80000 && t.chips.dac[2].pend && t.chips.dac[2].out == 0) = true ∧
    nexts (exec (.wireDacReadRequest 2) (idle cfg0)) (fun t => t.chips.dac[2].readArmed) = true ∧
    sends (exec (.wireDacReadNull 2) (idle cfg0)) (.sync 2) [0x00, 0x00, 0x00] = true ∧
    nexts (exec (.wireDacInit 2) (idle cfg0)) (fun t => !t.chips.dac[2].tri) = true := by decide +kernel

/-- R83: a mode frame makes the enabled channels' results due, a low poll finds the line driven, a read takes one. -/
theorem test_ref_adc :
    let due (ch : RefChips) (cs : List AdcChan) (low : Bool) := ch.adcDue == cs && ch.drdyLow == low
    let chips : RefChips := { chips0 with adcReg := (chips0.adcReg.set 2 0x8001).set 7 0x8010 }
    let s := { answering cfg0 [.low] [] with chips := { chips with adcDue := [9] } }
    nexts (exec .wireAdcMode s) (fun t => due t.chips [2, 7] false) = true ∧
    nexts (exec .adcWaitDrdy s) (fun t => due t.chips [9] true) = true ∧
    nexts (exec .wireAdcDataRead s) (fun t => due t.chips [] false) = true ∧
    (chips.Agrees (.readLevel .drdy .low) = false ∧ s.chips.Agrees (.readLevel .drdy .low) = true) := by decide +kernel

/-- P1's end: channel 0 at 2621440/524287 V, channel 1 at -2.5 V, a tristated channel at none (R80). -/
theorem test_analog_output :
    RefDacChannel.analogOutput ⟨false, 0x40000, 0x40000, false, false⟩ = some (2621440 / 524287) ∧
    RefDacChannel.analogOutput ⟨false, 0xE0000, 0xE0000, false, false⟩ = some (-5 / 2) ∧
    RefDacChannel.analogOutput ⟨true, 0xE0000, 0xE0000, false, false⟩ = none := by decide +kernel

theorem test_wire_poison : nexts (exec .wirePoison (idle cfg0)) (fun t => t.log == []) = true := by decide +kernel

/-! ### Witnesses: environment, reset, the step -/

theorem witness_ResetFromAnyStateMakesThreeEvents :
    ({ at_ cfg0 .adcWaitDrdy (.polling 1) with signals := [.reset] } : State).signals = [.reset] := rfl

/-- Between operations, and inside a latch pulse. -/
theorem witness_StepKeepsInvariant :
    (idle cfg0).Inv ∧ (∃ t, step (idle cfg0) = .next t) ∧
    ({ at_ cfg0 .dacUpdateOutputs .pulseLow with latchLevel := some .low } : State).Inv ∧
    ∃ t, step { at_ cfg0 .dacUpdateOutputs .pulseLow with latchLevel := some .low } = .next t :=
  ⟨⟨⟨rfl, .inl rfl, nofun⟩, by decide, by decide, by decide, by decide, by decide⟩, ⟨_, rfl⟩,
    ⟨⟨by decide, .inl rfl, rfl, nofun, .inl rfl⟩, by decide, by decide, by decide, by decide, by decide⟩, ⟨_, rfl⟩⟩

theorem witness_ObedientHostIsNeverStopped :
    (idle cfg0).Inv ∧ ({ idle cfg0 with hostQueue := [.op 0x40 .none rfl, .op 0x41 .none rfl] } : State).HostObeys :=
  ⟨⟨⟨rfl, .inl rfl, nofun⟩, by decide, by decide, by decide, by decide, by decide⟩, by
    intro d hd
    rcases List.mem_cons.mp hd with rfl | hd
    · exact ⟨0x40, .none, rfl, rfl, fun i h => by cases h; rfl⟩
    · cases List.mem_singleton.mp hd
      exact ⟨0x41, .none, rfl, rfl, nofun⟩⟩

theorem witness_StepRunsDecodedInstruction :
    ({ idle cfg0 with hostQueue := [.op 0x24 .none rfl] } : State).IsIdle ∧
    ({ idle cfg0 with hostQueue := [.op 0x24 .none rfl] } : State).Quiet ∧
    decode cfg0 (.op 0x24 .none rfl) = .instr .dacUpdateOutputs ∧
    ((at_ cfg0 .dacUpdateOutputs .pulseLow).Quiet ∧
      (at_ cfg0 .dacUpdateOutputs .pulseLow).seqpos = .busy .dacUpdateOutputs 1 .pulseLow) ∧
    (idle cfg0).hostQueue = [] ∧
    (({ idle cfg0 with hostQueue := [.frame .adcChcfg .adcSelect [0x10, 0x82, 0x01]] } : State).Quiet ∧
      decode cfg0 (.frame .adcChcfg .adcSelect [0x10, 0x82, 0x01]) = .unknownFrame) ∧
    ({ idle cfg0 with signals := [.quiet] } : State).signals = [.quiet] ∧
    (({ idle cfg0 with signals := [.cancel] } : State).signals = [.cancel] ∧ cfg0.cancelSupported = true) ∧
    (idle { cfg0 with cancelSupported := false }).cfg.cancelSupported = false :=
  ⟨rfl, rfl, rfl, ⟨rfl, rfl⟩, rfl, ⟨rfl, by decide⟩, rfl, ⟨rfl, rfl⟩, rfl⟩

theorem witness_LastErrIsWrittenByCompleteOnly :
    (idle cfg0).NoReset ∧ (∃ t, step (idle cfg0) = .next t) ∧
    ∃ t, step { idle cfg0 with hostQueue := [.op 0x40 .none rfl] } = .next t := ⟨nofun, ⟨_, rfl⟩, ⟨_, rfl⟩⟩

theorem witness_SequencerCountsEvents :
    (∃ t, exec .adcDisableAll (idle cfg0) = .next t ∧ t.seqpos = .busy .adcDisableAll 1 (.finish .none .unit)) ∧
    ∃ t, exec .dacUpdateOutputs (at_ cfg0 .dacUpdateOutputs .pulseLow) = .next t := ⟨⟨_, rfl, rfl⟩, ⟨_, rfl⟩⟩

theorem witness_IllegalOpcodeCompletesAtOnce :
    ({ idle cfg0 with hostQueue := [.op 0x00 .none rfl] } : State).IsIdle ∧
    ({ idle cfg0 with hostQueue := [.op 0x00 .none rfl] } : State).Quiet ∧
    (Operands.fits 0xFF (.volts 1) = true) ∧ (0x00 : Byte) ∉ legalOpcodes ∧ (0xFF : Byte) ∉ legalOpcodes :=
  ⟨rfl, rfl, rfl, by decide, by decide⟩

/-! ### Witnesses: encoding and codecs -/

theorem witness_FramesDistinct : cfg0.FramesDistinct = true := by decide

theorem witness_EncodeDecodeAgree :
    decode cfg0 (.frame .dacReadNull (.sync 1) [0x00, 0x00, 0x00]) = .instr (.wireDacReadNull 1) ∧
    Operands.fits 0x22 (.dacChannel 3) = true ∧ Operands.fits 0x25 (.dacChannel 3) = true := by
  decide

/-- The bytes before, at and after the two written. -/
theorem witness_MemWriteIsReadBack :
    1 + 2 ≤ ([0, 0, 0, 0] : List Byte).length ∧ (0 < 2 ∧ 1 < 2) ∧ (0 < 1 ∨ 1 + 2 ≤ 0) ∧ (3 < 1 ∨ 1 + 2 ≤ 3) := by decide

theorem witness_PseudoInstructionsExpand :
    dacChanToken "3".toList = some 3 ∧ voltToken "-2.5".toList = some (-5 / 2) := by decide +kernel

/-- Refused at size 0; at the capacity and above it. -/
theorem witness_BuildFrameChecksCapacity :
    (¬(1 ≤ (0 : BitVec 32).toNat ∧ 1 ≤ (1 : BitVec 32).toNat ∧ ([] : List Byte).length = 0 * 1)) ∧
    (idle cfg0).IsIdle ∧
    (1 ≤ (64 : BitVec 32).toNat ∧ 1 ≤ (1 : BitVec 32).toNat ∧
      (List.replicate 64 (0 : Byte)).length = (64 : BitVec 32).toNat * (1 : BitVec 32).toNat) ∧
    (List.replicate 65 (0 : Byte)).length = (65 : BitVec 32).toNat * (1 : BitVec 32).toNat := ⟨by decide, rfl, by decide, by decide⟩

/-- One configuration for each error and a valid one at the ends of the ranges. -/
theorem witness_AdcCfgEncodeChecksInOrder :
    (idle cfg0).IsIdle ∧ ConfigError 2 9 99 99 .invalidState ∧ ConfigError 1 8 0 1 .invalidSetup ∧
    ConfigError 1 7 5 17 .invalidInputPair ∧ ConfigError 0 0 16 16 .invalidInput1 ∧ ConfigValid 1 7 15 14 := by
  refine ⟨rfl, .inl ⟨rfl, by decide⟩, .inr (.inl ⟨rfl, by decide, by decide⟩),
    .inr (.inr (.inl ⟨rfl, by decide, by decide, ?_⟩)),
    .inr (.inr (.inr ⟨rfl, by decide, by decide, .inl rfl, by decide⟩)),
    by decide, by decide, .inr ⟨7, by decide, by decide⟩, by decide⟩
  rintro (h | ⟨k, hk, h⟩)
  · exact absurd h (by decide)
  · omega

theorem witness_AdcConfigureChannelCommitsOnSuccess :
    (idle cfg0).IsIdle ∧ ConfigError 2 0 0 1 .invalidState ∧ ConfigValid 0 0 0 16 :=
  ⟨rfl, .inl ⟨rfl, by decide⟩, by decide, by decide, .inl rfl, by decide⟩

theorem witness_AdcCfgDecodeReadsFields : (idle cfg0).IsIdle := rfl

theorem witness_ConfigCodecFacts : (idle cfg0).IsIdle ∧ validate 1 7 15 14 = .none := ⟨rfl, by decide⟩

theorem witness_RoundingModes : (0 : Rat) ≤ 0 ∧ (-1 / 2 : Rat) < 0 := by decide +kernel

/-- The boundary voltages of each clause. -/
theorem witness_DacV2cConvertsOrRejects :
    (idle cfg0).IsIdle ∧ (10 : Volts) < |10 + 1 / 1000000| ∧ ((0 : Volts) ≤ 0 ∧ (0 : Volts) ≤ 10) ∧
    ((0 : Volts) ≤ 10 ∧ (10 : Volts) ≤ 10) ∧ ((-10 : Volts) < 0 ∧ (-10 : Volts) ≤ -10) := by
  refine ⟨rfl, ?_⟩
  norm_num [abs_of_pos]

theorem witness_ConverterFacts : |(10 : Volts)| ≤ 10 ∧ |(-10 : Volts)| ≤ 10 ∧ Rounding.halfToEven ≠ .towardZero := by
  refine ⟨by norm_num, by norm_num, nofun⟩

/-- The operations whose only hypothesis is an idle block: ADC_DISABLE_ALL_ENCODE, DAC_C2V, DAC_WRITE_ENCODE,
ADC_CODE_DECODE, ADC_DISABLE_ALL, ADC_SELECT_MODE, DAC_INIT_ALL, DAC_UPDATE_OUTPUTS, RAMP_PRIME and
READ_STATUS. -/
theorem witness_idle_block : (idle cfg0).IsIdle := rfl

theorem witness_DacReadDecodeMasksNibble :
    (idle cfg0).IsIdle ∧ (⟨0x1F, 0xFF, 0xFF⟩ : Bytes3) = writeFrame cfg0 0xFFFFF := ⟨rfl, by decide⟩

/-! ### Witnesses: drivers -/

/-- A low first read; two highs and a low under no timeout and under three reads; a timeout of one; no timeout. -/
theorem witness_AdcWaitDrdyPollsUntilLowOrTimeout :
    ((answering cfg0 [.low] []).IsIdle ∧ (answering cfg0 [.low] []).levelNow = .low) ∧
    ((answering (cfgTimeout 3) [.high, .high, .low] []).levelAnswers = List.replicate 2 .high ++ .low :: [] ∧
      ∀ limit, (cfgTimeout 3).drdyTimeoutPolls = some limit → 2 < limit) ∧
    (1 ≤ 1 ∧ (cfgTimeout 1).drdyTimeoutPolls = some 1 ∧
      (answering (cfgTimeout 1) [.high] []).levelAnswers = List.replicate 1 .high ++ []) ∧
    (cfg0.drdyTimeoutPolls = none ∧ (answering cfg0 [.high] []).levelAnswers = List.replicate (0 + 1) .high ++ []) :=
  ⟨⟨rfl, rfl⟩, ⟨rfl, fun limit h => by cases h; decide⟩, ⟨by decide, rfl, rfl⟩, rfl, rfl⟩

theorem witness_AdcReadChannelFilesResult :
    (answering cfg0 [] [[0xAA, 0x12, 0x34, 0x56]]).IsIdle ∧
    (answering cfg0 [] [[0xAA, 0x12, 0x34, 0x56]]).rxFor 4 = [0xAA, 0x12, 0x34, 0x56] := ⟨rfl, rfl⟩

/-- The first wait reads high as often as a timeout of three allows and then low, the second low at once. -/
theorem witness_AdcFullReadingReadsEnabledChannels :
    (reading (cfgTimeout 3) [.high, .high, .low, .low]).IsIdle ∧
    WaitsEnd (cfgTimeout 3) (enabledChans (reading (cfgTimeout 3) []).enabled) [(0, 2), (5, 0)] ∧
    (reading (cfgTimeout 3) [.high, .high, .low, .low]).levelAnswers = levelsOf [(0, 2), (5, 0)] ++ [] :=
  ⟨rfl, ⟨by decide, fun limit h => by cases h; decide⟩, rfl⟩

theorem witness_AdcFullReadingTimeoutKeepsEarlierResults :
    (reading (cfgTimeout 2) [.low, .high, .high]).IsIdle ∧
    enabledChans (reading (cfgTimeout 2) [.low, .high, .high]).enabled = [0] ++ 5 :: [] ∧
    WaitsEnd (cfgTimeout 2) [0] [(0, 0)] ∧ 1 ≤ 2 ∧ (cfgTimeout 2).drdyTimeoutPolls = some 2 ∧
    (reading (cfgTimeout 2) [.low, .high, .high]).levelAnswers = levelsOf [(0, 0)] ++ List.replicate 2 .high ++ [] :=
  ⟨rfl, by decide, ⟨rfl, fun limit h => by cases h; decide⟩, by decide, rfl, rfl⟩

theorem witness_DacSetVoltageWritesAndCommits :
    (idle cfg0).IsIdle ∧ (10 : Volts) < |-10 - 1 / 1000| ∧ |(-10 : Volts)| ≤ 10 ∧ |(10 : Volts)| ≤ 10 := by
  refine ⟨rfl, ?_, by norm_num, by norm_num⟩
  norm_num [abs_of_neg]

theorem witness_DacReadbackTakesTwoTransfers :
    (answering cfg0 [] [[], [0x9C, 0x00, 0x00]]).IsIdle ∧
    ((answering cfg0 [] [[], [0x9C, 0x00, 0x00]]).transfer (.sync 1) cfg0.dacReadReq.toList).rxFor 3 =
      [0x9C, 0x00, 0x00] ∧
    (0xC0000 : DacCode).toNat = (0x9C : Byte).toNat % 16 * 65536 + (0x00 : Byte).toNat * 256 + (0x00 : Byte).toNat :=
  ⟨rfl, rfl, by decide⟩

/-! ### Witnesses: ramps -/

theorem witness_RampPlanComputesDeltas :
    (idle cfg0).IsIdle ∧ (plan0 0 5 0).stepCount = 0 ∧ (plan0 0 5 1).stepCount ≠ 0 := ⟨rfl, rfl, by decide⟩

/-- No steps; one step without and with a cancel pending. -/
theorem witness_RampSimpleRefinesItsSteps :
    (idle cfg0).IsIdle ∧ (plan0 0 5 0).stepCount = 0 ∧ (plan0 0 5 1).stepCount ≠ 0 ∧ (idle cfg0).cancelBit = false ∧
    ({ idle cfg0 with cancelReq := true } : State).cancelBit = true := ⟨rfl, rfl, by decide, rfl, rfl⟩

/-- The waits of the small ramps: pass `k` waits for ADC channel 0 through `k` high reads. -/
def slower (k : Nat) : Waits := [(0, k)]

theorem slower_end (n k : Nat) (plan : Plan) (h : plan.activeAdcMask = 1) (hk : k < n) :
    WaitsEnd (cfgTimeout n) (adcChansOf plan.activeAdcMask) (slower k) :=
  ⟨by rw [h]; exact (by decide : [0] = adcChansOf 1), fun limit hl => by cases hl; simpa [slower] using hk⟩

/-- Under a timeout of three reads, the last pass's wait ends at its third. -/
theorem witness_RampBufferedRefinesItsSteps :
    let s := answering (cfgTimeout 3) [.low, .high, .low, .high, .high, .low] []
    s.IsIdle ∧ 2 ≤ (plan0 0 5 2).stepCount.toNat ∧ s.cancelBit = false ∧
    (∀ k, k ≤ (plan0 0 5 2).stepCount.toNat → WaitsEnd s.cfg (adcChansOf (plan0 0 5 2).activeAdcMask) (slower k)) ∧
    s.levelAnswers = levelsOfPasses slower (plan0 0 5 2).stepCount.toNat ++ [] :=
  ⟨rfl, by decide, rfl, fun k hk => slower_end 3 k _ rfl (Nat.lt_succ_of_le hk), by decide⟩

theorem witness_RampBufferedOfOneStepIsItsBaseline :
    (answering (cfgTimeout 2) [.high, .low] []).IsIdle ∧ (plan0 0 5 0).stepCount = 0 ∧ (plan0 0 5 1).stepCount = 1 ∧
    WaitsEnd (cfgTimeout 2) (adcChansOf (plan0 0 5 1).activeAdcMask) (slower 1) ∧
    (answering (cfgTimeout 2) [.high, .low] []).levelAnswers = levelsOf (slower 1) ++ [] :=
  ⟨rfl, rfl, rfl, slower_end 2 1 _ rfl (by decide), rfl⟩

theorem voltage_of_flat_plan (n : BitVec 32) (k : Nat) (c : DacChan) : planVoltage (plan0 0 0 n) k c = 0 := by
  fin_cases c <;> simp [planVoltage, plan0]

/-- One and two steps. -/
theorem witness_RampEventCounts :
    let s := answering (cfgTimeout 3) [.low, .high, .low, .high, .high, .low] []
    s.IsIdle ∧ s.cancelBit = false ∧
    (∀ k, k ≤ 2 → WaitsEnd s.cfg (adcChansOf (plan0 0 0 2).activeAdcMask) (slower k)) ∧
    (dacChansOf (plan0 0 0 2).activeDacMask).length = 1 ∧ (adcChansOf (plan0 0 0 2).activeAdcMask).length = 1 ∧
    (plan0 0 0 1).stepCount.toNat = 1 ∧ (plan0 0 0 2).stepCount.toNat = 2 ∧
    (¬RampOverrange (plan0 0 0 1) 1) ∧ (¬RampOverrange (plan0 0 0 2) 2) ∧
    s.levelAnswers = levelsOfPasses slower 2 ++ [] ∧
    (answering (cfgTimeout 3) [.low] []).levelAnswers = levelsOf (slower 0) ++ [] := by
  intro s
  have flat : ∀ (n : BitVec 32) (m : Nat), ¬RampOverrange (plan0 0 0 n) m := by
    rintro n m ⟨c, _, h | ⟨k, _, _, h⟩⟩
    · rw [show (plan0 0 0 n).vInitial[c] = 0 by fin_cases c <;> rfl] at h; revert h; decide +kernel
    · rw [voltage_of_flat_plan] at h; revert h; decide +kernel
  exact ⟨rfl, rfl, fun k hk => slower_end 3 k _ rfl (Nat.lt_succ_of_le hk), by decide, by decide, rfl, rfl, flat 1 1,
    flat 2 2, by decide, rfl⟩

/-- The last boundary with a step left and the first with none, for both ramps; the end of priming, with no channel
left and with one that is out of range. -/
theorem witness_RampCancelEndsAtBoundary :
    let regs (k : Nat) : RampRegs := ⟨#v[some 1, none, none, none], k, .none⟩
    let s (p : Point) : State := { at_ cfg0 (.rampSimple (plan0 0 5 5)) p with cancelReq := true }
    let o : State := { at_ cfg0 (.rampSimple (plan0 11 5 1)) (.primeNext (regs 0) [0]) with cancelReq := true }
    let b (p : Point) : State := { at_ cfg0 (.rampBuffered (plan0 0 5 5)) p with cancelReq := true }
    ((s (.slept (regs 4))).seqpos = .busy (.rampSimple (plan0 0 5 5)) 1 (.slept (regs 4)) ∧
      (regs 4).step < (plan0 0 5 5).stepCount.toNat ∧ (s (.slept (regs 4))).cancelBit = true) ∧
    (plan0 0 5 5).stepCount.toNat ≤ (regs 5).step ∧
    ((s (.primeNext (regs 0) [])).seqpos = .busy (.rampSimple (plan0 0 5 5)) 1 (.primeNext (regs 0) []) ∧
      (plan0 0 5 5).stepCount ≠ 0 ∧ (s (.primeNext (regs 0) [])).cancelBit = true) ∧
    (o.seqpos = .busy (.rampSimple (plan0 11 5 1)) 1 (.primeNext (regs 0) [0]) ∧ (plan0 11 5 1).stepCount ≠ 0 ∧
      o.cancelBit = true ∧ ∀ c ∈ ([0] : List DacChan), overrange (plan0 11 5 1).vInitial[c] = true) ∧
    ((b (.passNext (.ramp (regs 4) 4) [])).seqpos =
        .busy (.rampBuffered (plan0 0 5 5)) 1 (.passNext (.ramp (regs 4) 4) []) ∧
      2 ≤ (plan0 0 5 5).stepCount.toNat ∧ 4 < (plan0 0 5 5).stepCount.toNat ∧
      (b (.passNext (.ramp (regs 4) 4) [])).cancelBit = true) ∧
    (plan0 0 5 5).stepCount.toNat ≤ 5 :=
  ⟨⟨rfl, by decide, rfl⟩, by decide, ⟨rfl, by decide, rfl⟩, ⟨rfl, by decide, rfl, by decide +kernel⟩,
    ⟨rfl, by decide, by decide, rfl⟩,
    by decide⟩

theorem witness_RampTimeoutAborts :
    let p : Point := .passNext (.ramp ⟨#v[some 1, none, none, none], 0, .voltageOverrange⟩ 0) [0]
    let s : State := { at_ (cfgTimeout 1) (.rampBuffered (plan0 0 5 5)) p with levelAnswers := [.high] }
    s.seqpos = .busy (.rampBuffered (plan0 0 5 5)) 1 p ∧ 1 ≤ 1 ∧ s.cfg.drdyTimeoutPolls = some 1 ∧
      s.levelAnswers = List.replicate 1 .high ++ [] := ⟨rfl, by decide, rfl, rfl⟩

/-- The first and the last step of a plan from one end of the range to the other. -/
theorem witness_InterpolationStaysBetweenEndpoints :
    let regs (k : Nat) : RampRegs := ⟨#v[some 5, none, none, none], k, .voltageOverrange⟩
    (regs 1).Fits (plan0 (-10) 10 4) ∧ (regs 4).Fits (plan0 (-10) 10 4) ∧
    (plan0 (-10) 10 4).activeDacMask.getLsbD (0 : DacChan).val = true ∧
    (regs 4).step = (plan0 (-10) 10 4).stepCount.toNat ∧ (regs 1).step ≤ (plan0 (-10) 10 4).stepCount.toNat ∧
    |(plan0 (-10) 10 4).vInitial[0]| ≤ 10 ∧ |(plan0 (-10) 10 4).vFinal[0]| ≤ 10 := by
  refine ⟨⟨by decide +kernel, .inr rfl⟩, ⟨by decide +kernel, .inr rfl⟩, rfl, rfl, by decide, ?_, ?_⟩ <;>
    norm_num [plan0]

/-! ### Witnesses: frames, noninterference, chips -/

theorem witness_WireAdcFramesAreOneTransfer :
    (idle cfg0).IsIdle ∧ (idle cfg0).cfg.FramesDistinct = true ∧
    (∃ t, exec (.wireAdcChcfg 15 true 7 15 16) (idle cfg0) = .next t) ∧
    (∃ t, exec .wireAdcDisableAll (idle cfg0) = .next t) ∧ (∃ t, exec .wireAdcMode (idle cfg0) = .next t) ∧
    (∃ t, exec .wireAdcDataRead (idle cfg0) = .next t) ∧ ∃ t, exec .adcWaitDrdy (idle cfg0) = .next t :=
  ⟨rfl, by decide, ⟨_, rfl⟩, ⟨_, rfl⟩, ⟨_, rfl⟩, ⟨_, rfl⟩, ⟨_, rfl⟩⟩

theorem witness_WireDacFramesReachTheReferenceDac :
    (idle cfg0).IsIdle ∧ (idle cfg0).cfg.FramesDistinct = true ∧
    (∃ t, exec (.wireDacWrite 1 5) (idle cfg0) = .next t) ∧ (∃ t, exec (.wireDacReadRequest 1) (idle cfg0) = .next t) ∧
    (∃ t, exec (.wireDacReadNull 1) (idle cfg0) = .next t) ∧ ∃ t, exec (.wireDacInit 1) (idle cfg0) = .next t :=
  ⟨rfl, by decide, ⟨_, rfl⟩, ⟨_, rfl⟩, ⟨_, rfl⟩, ⟨_, rfl⟩⟩

theorem witness_TransfersAreOneUnheldBlock :
    ∃ t line f hold rx, exec .adcDisableAll (idle cfg0) = .next t ∧
      t.log = .transfer line f hold rx :: (idle cfg0).log := ⟨_, _, _, _, _, rfl, rfl⟩

theorem witness_DacRecordFrame :
    (∃ t, exec .adcDisableAll (idle cfg0) = .next t) ∧ ∃ t, exec (.wireDacWrite 1 5) (idle cfg0) = .next t :=
  ⟨⟨_, rfl⟩, ⟨_, rfl⟩⟩

theorem witness_LatchFrame :
    (∃ t, exec .adcDisableAll (idle cfg0) = .next t) ∧ ∃ t, exec .dacUpdateOutputs (idle cfg0) = .next t :=
  ⟨⟨_, rfl⟩, ⟨_, rfl⟩⟩

theorem witness_AdcRecordFrame : ∃ t, exec .dacUpdateOutputs (idle cfg0) = .next t := ⟨_, rfl⟩

theorem witness_RampAndHostFrame :
    (∃ t, exec .dacUpdateOutputs (idle cfg0) = .next t) ∧
    (∃ t, exec (.rampSimple (plan0 0 5 0)) (idle cfg0) = .next t) ∧ (plan0 0 5 0).stepCount = 0 ∧
    (idle cfg0).IsIdle := ⟨⟨_, rfl⟩, ⟨_, rfl⟩, rfl, rfl⟩

theorem witness_ChipsDoNotConstrainTheBlock :
    (idle cfg0).withoutChips = ({ idle cfg0 with chips := { chips0 with latchLow := true } } : State).withoutChips := rfl

theorem witness_CalibrationHasNoEffect :
    (idle cfg0).withoutCalibration = (idle { cfg0 with ge := #v[2, 3, 4, 5] }).withoutCalibration := by decide +kernel

theorem witness_AdcStateGatesNothing :
    Instr.adcReadChannel 0 ≠ .readStatus ∧
    (idle cfg0).withoutAdcState = ({ idle cfg0 with adcState := .awaitingDataReady } : State).withoutAdcState :=
  ⟨nofun, rfl⟩

theorem witness_LatchPulseCommitsPendingCodes :
    (idle cfg0).IsIdle ∧ ∃ t, execs .dacUpdateOutputs 2 (idle cfg0) = .next t := ⟨rfl, _, rfl⟩

/-- The reference DAC holds 0 in channel 1, and the second answer says so under a free nibble. -/
theorem witness_ReadbackUnderReferenceDac :
    let s := answering cfg0 [] [[0x00, 0x00, 0x00], [0x90, 0x00, 0x00]]
    s.cfg.FramesDistinct = true ∧ s.IsIdle ∧ ∃ t₁ t₂ e, exec (.dacReadVoltage 1) s = .next t₁ ∧
      exec (.dacReadVoltage 1) t₁ = .next t₂ ∧ t₂.log = e :: t₁.log ∧ t₁.chips.Agrees e = true :=
  ⟨by decide, rfl, _, _, _, rfl, rfl, rfl, by decide⟩

end Sys2Proof.Tests
end

section
/-!
Scope. What a step does with the host's next move, and why no step from the invariant stops for an obedient host.
-/

namespace Sys2Proof.Machine

/-! ### The branches of a step -/

/-- Without a signal from the host a step is what the block does by itself. -/
theorem step_of_quiet {s : State} (hq : s.Quiet) : step s = stepNow s := by
  rw [step, takeSignal_quiet hq]

/-- An operation in progress goes on (10 R21). -/
theorem stepNow_busy {s : State} {i : Instr} {k : Nat} {p : Point} (hs : s.seqpos = .busy i k p) :
    stepNow s = exec i s := by
  simp [stepNow, hs]

/-- The reset sequence goes on (70 R292). -/
theorem stepNow_resetting {s : State} {n : Nat} (hs : s.seqpos = .resetting n) :
    stepNow s = .next (s.resetEvent n) := by
  simp [stepNow, hs]

/-- An idle block with nothing issued waits (log 2). -/
theorem stepNow_wait {s : State} (hs : s.seqpos = .idle) (hh : s.hostQueue = []) : stepNow s = .next s := by
  simp [stepNow, hs, State.fetch, hh]

section Fetching

variable {s : State} {d : Descriptor} {rest : List Descriptor}

/-- An idle block runs the instruction issued, with its descriptor taken (20 R77). -/
theorem stepNow_issue {i : Instr} (hs : s.seqpos = .idle) (hh : s.hostQueue = d :: rest)
    (hd : decode s.cfg d = .instr i) : stepNow s = exec i { s with hostQueue := rest } := by
  simp [stepNow, hs, State.fetch, hh, hd]

/-- An idle block completes an opcode outside the map at once, with its descriptor taken (30 R105). -/
theorem stepNow_illegal {o : Byte} (hs : s.seqpos = .idle) (hh : s.hostQueue = d :: rest)
    (hd : decode s.cfg d = .illegalOpcode o) :
    stepNow s = .next ({ s with hostQueue := rest } : State).illegalOperation := by
  simp [stepNow, hs, State.fetch, hh, hd]

/-- An idle block refuses bytes that are no frame of the kind they are sent as (30 R90 to R98). -/
theorem stepNow_unknownFrame (hs : s.seqpos = .idle) (hh : s.hostQueue = d :: rest)
    (hd : decode s.cfg d = .unknownFrame) : stepNow s = .refused .unknownFrame := by
  simp [stepNow, hs, State.fetch, hh, hd]

end Fetching

/-! ### The host's signal before a step (10 R30) -/

theorem writeCancel_supported {s : State} (h : s.cfg.cancelSupported = true) :
    s.writeCancel = { s with cancelReq := true } := if_pos h

theorem writeCancel_unsupported {s : State} (h : s.cfg.cancelSupported = false) : s.writeCancel = s := by
  simp [State.writeCancel, h]

theorem step_of_quiet_signal {s : State} {rest : List HostSignal} (h : s.signals = .quiet :: rest) :
    step s = stepNow { s with signals := rest } := by
  simp [step, State.takeSignal, h]

theorem step_of_cancel_signal {s : State} {rest : List HostSignal} (h : s.signals = .cancel :: rest) :
    step s = stepNow ({ s with signals := rest } : State).writeCancel := by
  simp [step, State.takeSignal, h]

/-- Settles O7: each clause is one branch of `takeSignal`, `stepNow` or `fetch`. -/
theorem stepRunsDecodedInstruction : Obligations.StepRunsDecodedInstruction := by
  unfold Obligations.StepRunsDecodedInstruction
  refine ⟨?issue, ?goesOn, ?wait, ?refuse, ?quiet, ?cancel, ?noCancel⟩
  case issue =>
    intro s d rest i hs hq hh hd
    rw [step_of_quiet hq, stepNow_issue hs hh hd]
  case goesOn =>
    intro s i k p hq hs
    rw [step_of_quiet hq, stepNow_busy hs]
  case wait =>
    intro s hs hq hh
    rw [step_of_quiet hq, stepNow_wait hs hh]
  case refuse =>
    intro s d rest hs hq hh hd
    rw [step_of_quiet hq, stepNow_unknownFrame hs hh hd]
  case quiet => exact fun s rest => step_of_quiet_signal
  case cancel =>
    intro s rest hsig hsup
    exact (step_of_cancel_signal hsig).trans (congrArg stepNow (writeCancel_supported hsup))
  case noCancel =>
    refine fun s hsup => ⟨by simp [State.cancelBit, hsup], fun rest hsig => ?_⟩
    exact (step_of_cancel_signal hsig).trans (congrArg stepNow (writeCancel_unsupported hsup))

/-! ### What it is for an outcome to go on -/

/-- The outcome is a next state, with the host's queue as in `s`. -/
def State.Proceeds (s : State) (o : Outcome) : Prop := ∃ t, o = .next t ∧ t.hostQueue = s.hostQueue

theorem State.Proceeds.ne_fault {s : State} {o : Outcome} (h : s.Proceeds o) (r : Fault) : o ≠ .fault r := by
  obtain ⟨t, rfl, _⟩ := h
  nofun

theorem running_proceeds_of_idle {i : Instr} {s : State} {body : Nat → Point → State → Outcome}
    (hs : s.seqpos = .idle) (h : s.Proceeds (body 0 .start s)) : s.Proceeds (running i s body) := by
  rwa [running_idle hs]

theorem running_proceeds_of_busy {i : Instr} {s : State} {k : Nat} {p : Point}
    {body : Nat → Point → State → Outcome} (hs : s.seqpos = .busy i k p) (h : s.Proceeds (body k p s)) :
    s.Proceeds (running i s body) := by
  rwa [running_busy hs]

theorem completing_proceeds {i : Instr} {s : State} {err : Err} {value : Value} (hs : s.seqpos = .idle) :
    s.Proceeds (completing i err value s) := ⟨_, completing_idle hs, rfl⟩

theorem sendFrame_proceeds {line : Line} {bytes : List Byte} {s : State} (hs : s.seqpos = .idle) :
    s.Proceeds (sendFrame line bytes s) := ⟨_, sendFrame_idle hs, rfl⟩

/-! ### The shared parts of operations go on -/

theorem pollStep_proceeds (i : Instr) (k polls : Nat) (ready expired again : Point) (s : State) :
    s.Proceeds (pollStep i k polls ready expired again s) := ⟨_, rfl, rfl⟩

theorem initNext_proceeds (k : Nat) (todo : List DacChan) (s : State) : s.Proceeds (initNext k todo s) := by
  cases todo <;> exact ⟨_, rfl, rfl⟩

theorem primeFrom_proceeds {i : Instr} {v : Vector Volts 4} {primed : RampRegs → State → Outcome} {k : Nat}
    {regs : RampRegs} {todo : List DacChan} {s : State} (hprimed : ∀ regs, s.Proceeds (primed regs s)) :
    s.Proceeds (primeFrom i v primed k regs todo s) := by
  unfold primeFrom
  split
  · exact hprimed _
  · exact ⟨_, rfl, rfl⟩

theorem resumePrime_proceeds {i : Instr} {v : Vector Volts 4} {primed : RampRegs → State → Outcome} {k : Nat}
    {p : Point} {ok : RampRegs → Prop} {s : State} (hp : p.InPriming ok)
    (hprimed : ∀ regs, s.Proceeds (primed regs s)) : s.Proceeds (resumePrime i v primed k p s) := by
  cases p with
  | primeWrote | primeLowered => exact ⟨_, rfl, rfl⟩
  | primeNext => exact primeFrom_proceeds hprimed
  | _ => exact False.elim hp

theorem stepFrom_proceeds (i : Instr) (plan : Plan) (k : Nat) (regs : RampRegs) (todo : List DacChan) (s : State) :
    s.Proceeds (stepFrom i plan k regs todo s) := by
  obtain ⟨_, _, h | ⟨_, _, h⟩⟩ := stepFrom_next i plan k regs todo s <;> exact ⟨_, h, rfl⟩

theorem stepBoundary_proceeds (i : Instr) (plan : Plan) (passes : BitVec 32) (k : Nat) (regs : RampRegs)
    (s : State) : s.Proceeds (stepBoundary i plan passes k regs s) := by
  obtain ⟨_, h⟩ | ⟨_, _, h⟩ | ⟨_, _, h⟩ := stepBoundary_cases i plan passes k regs s
  · exact ⟨_, h, rfl⟩
  · exact ⟨_, h, rfl⟩
  · exact h ▸ stepFrom_proceeds ..

/-- A step goes on from any of its points but the last, which is the caller's (46 R236, R237). -/
theorem resumeStep_proceeds {i : Instr} {plan : Plan} {k : Nat} {p : Point} {ok : RampRegs → Prop} {s : State}
    (hp : p.InStep ok) (hslept : ∀ regs, p ≠ .slept regs) : s.Proceeds (resumeStep i plan k p s) := by
  cases p with
  | stepNext => exact stepFrom_proceeds ..
  | stepLowered | stepRaised => exact ⟨_, rfl, rfl⟩
  | slept regs => exact absurd rfl (hslept regs)
  | _ => exact False.elim hp

/-- A full reading goes on if its two ends do for whoever takes it (44 R197). -/
theorem resumePass_proceeds {i : Instr} {atEnd onTimeout : Pass → State → Outcome} {k : Nat} {p : Point}
    {ok : Pass → Prop} {s : State} (hp : p.InPass ok) (hend : ∀ pass (s : State), ok pass → s.Proceeds (atEnd pass s))
    (htimeout : ∀ pass (s : State), ok pass → s.Proceeds (onTimeout pass s)) :
    s.Proceeds (resumePass i atEnd onTimeout k p s) := by
  cases p with
  | passNext pass todo =>
    cases todo with
    | nil => exact hend pass { s with adcState := .idle } hp
    | cons => exact pollStep_proceeds ..
  | passPolling => exact pollStep_proceeds ..
  | passReady | passCaptured => exact ⟨_, rfl, rfl⟩
  | passTimedOut pass => exact htimeout pass { s with adcState := .idle } hp
  | _ => exact False.elim hp

theorem finishReading_proceeds (pass : Pass) (s : State) (h : pass.IsReading) :
    s.Proceeds (finishReading pass s) := by
  cases pass with
  | reading => exact ⟨_, rfl, rfl⟩
  | ramp => exact False.elim h

theorem abortReading_proceeds (pass : Pass) (s : State) (h : pass.IsReading) :
    s.Proceeds (abortReading pass s) := by
  cases pass with
  | reading => exact ⟨_, rfl, rfl⟩
  | ramp => exact False.elim h

theorem endRampPass_proceeds {i : Instr} {plan : Plan} {k : Nat} {ok : RampRegs → Prop} (pass : Pass) (s : State)
    (h : pass.IsRamp ok) : s.Proceeds (endRampPass i plan k pass s) := by
  cases pass with
  | reading => exact False.elim h
  | ramp regs n =>
    dsimp only [endRampPass]
    split
    · exact ⟨_, rfl, by simp⟩
    · obtain ⟨t, ht, hq⟩ := stepBoundary_proceeds i plan (s.countPass n).rampPasses k { regs with step := n + 1 }
        (s.countPass n)
      exact ⟨t, ht, by simpa using hq⟩

theorem abortRamp_proceeds {ok : RampRegs → Prop} (pass : Pass) (s : State) (h : pass.IsRamp ok) :
    s.Proceeds (abortRamp pass s) := by
  cases pass with
  | reading => exact False.elim h
  | ramp => exact ⟨_, rfl, rfl⟩

theorem simplePrimed_proceeds (plan : Plan) (k : Nat) (regs : RampRegs) (s : State) :
    s.Proceeds (simplePrimed plan k regs s) := stepBoundary_proceeds ..

theorem bufferedPrimed_proceeds (plan : Plan) (k : Nat) (regs : RampRegs) (s : State) :
    s.Proceeds (bufferedPrimed plan k regs s) := ⟨_, rfl, rfl⟩

/-! ### Operations go on from their points -/

theorem execRampSimple_proceeds {plan : Plan} {s : State} {k : Nat} {p : Point}
    (hs : s.seqpos = .busy (.rampSimple plan) k p) (hp : RestsAt (.rampSimple plan) p) :
    s.Proceeds (execRampSimple plan s) := by
  refine running_proceeds_of_busy hs ?_
  cases p with
  | primeWrote | primeLowered | primeNext =>
    exact resumePrime_proceeds (ok := fun _ => True) trivial (simplePrimed_proceeds plan k · s)
  | stepNext | stepLowered | stepRaised => exact resumeStep_proceeds (ok := fun _ => True) trivial nofun
  | slept => exact stepBoundary_proceeds ..
  | _ => exact hp.elim False.elim False.elim

theorem execRampBuffered_proceeds {plan : Plan} {s : State} {k : Nat} {p : Point}
    (hs : s.seqpos = .busy (.rampBuffered plan) k p) (hp : RestsAt (.rampBuffered plan) p) :
    s.Proceeds (execRampBuffered plan s) := by
  refine running_proceeds_of_busy hs ?_
  cases p with
  | primeWrote | primeLowered | primeNext =>
    exact resumePrime_proceeds (ok := fun _ => True) trivial (bufferedPrimed_proceeds plan k · s)
  | stepNext | stepLowered | stepRaised => exact resumeStep_proceeds (ok := fun _ => True) trivial nofun
  | slept => exact ⟨_, rfl, rfl⟩
  | passNext | passPolling | passReady | passCaptured | passTimedOut =>
    exact resumePass_proceeds ((hp.resolve_left id).resolve_left id) endRampPass_proceeds abortRamp_proceeds
  | _ => exact hp.elim False.elim (Or.rec False.elim False.elim)

/-- An operation that rests at one of its points has a next event (10 R21). -/
theorem exec_proceeds_of_busy {i : Instr} {s : State} {k : Nat} {p : Point} (hs : s.seqpos = .busy i k p)
    (hp : RestsAt i p) : s.Proceeds (exec i s) := by
  unfold exec
  cases i with
  | adcConfigureChannel =>
    obtain ⟨rfl, _⟩ := hp
    exact running_proceeds_of_busy hs ⟨_, rfl, rfl⟩
  | adcDisableAll | adcSelectMode =>
    obtain rfl := hp
    exact running_proceeds_of_busy hs ⟨_, rfl, rfl⟩
  | adcWaitDrdy =>
    obtain ⟨_, rfl⟩ | rfl | rfl := hp <;> exact running_proceeds_of_busy hs ⟨_, rfl, rfl⟩
  | adcReadChannel =>
    obtain ⟨_, rfl⟩ := hp
    exact running_proceeds_of_busy hs ⟨_, rfl, rfl⟩
  | adcFullReading =>
    refine running_proceeds_of_busy hs ?_
    cases p with
    | start => exact False.elim hp
    | _ => exact resumePass_proceeds (ok := Pass.IsReading) hp finishReading_proceeds abortReading_proceeds
  | dacInitAll =>
    obtain ⟨_, rfl⟩ := hp
    exact running_proceeds_of_busy hs (initNext_proceeds ..)
  | dacSetVoltage =>
    obtain ⟨_, ⟨_, rfl | rfl⟩ | rfl⟩ := hp <;> exact running_proceeds_of_busy hs ⟨_, rfl, rfl⟩
  | dacReadVoltage | dacReadRegister =>
    obtain rfl | ⟨_, rfl⟩ := hp <;> exact running_proceeds_of_busy hs ⟨_, rfl, rfl⟩
  | dacUpdateOutputs =>
    obtain rfl | rfl := hp <;> exact running_proceeds_of_busy hs ⟨_, rfl, rfl⟩
  | rampPrime =>
    refine running_proceeds_of_busy hs ?_
    cases p with
    | start => exact False.elim hp
    | _ => exact resumePrime_proceeds (ok := RampRegs.FitsPrime) hp fun _ => ⟨_, rfl, rfl⟩
  | rampSimple => exact execRampSimple_proceeds hs hp
  | rampBuffered => exact execRampBuffered_proceeds hs hp
  | _ => exact False.elim hp

/-- An instruction that can be written at the interface starts on an idle block. -/
theorem exec_proceeds_of_idle {i : Instr} {s : State} (hs : s.seqpos = .idle) (hi : i.WellFormed = true) :
    s.Proceeds (exec i s) := by
  unfold exec
  cases i with
  | buildFrame size count data =>
    have hok : BuildFrameOk size count data = true := hi
    dsimp only [execBuildFrame]
    rw [if_pos hok]
    split <;> exact completing_proceeds hs
  | adcCfgEncode | adcCfgDecode | adcDisableAllEncode | dacC2v | dacWriteEncode | dacReadDecode | adcCodeDecode
  | readStatus => exact completing_proceeds hs
  | dacV2c v =>
    dsimp only [execDacV2c]
    split <;> exact completing_proceeds hs
  | rampPlan plan =>
    dsimp only [execRampPlan]
    split <;> exact completing_proceeds hs
  | adcConfigureChannel =>
    refine running_proceeds_of_idle hs ?_
    dsimp only
    split <;> exact ⟨_, rfl, rfl⟩
  | adcDisableAll | adcSelectMode | adcWaitDrdy | adcReadChannel | adcFullReading | dacReadVoltage
  | dacReadRegister | dacUpdateOutputs => exact running_proceeds_of_idle hs ⟨_, rfl, rfl⟩
  | dacInitAll => exact running_proceeds_of_idle hs (initNext_proceeds ..)
  | dacSetVoltage =>
    refine running_proceeds_of_idle hs ?_
    dsimp only
    split <;> exact ⟨_, rfl, rfl⟩
  | rampPrime => exact running_proceeds_of_idle hs (primeFrom_proceeds fun _ => ⟨_, rfl, rfl⟩)
  | rampSimple plan =>
    refine running_proceeds_of_idle hs ?_
    dsimp only
    split
    · exact ⟨_, rfl, rfl⟩
    · exact primeFrom_proceeds (s := s.beginRamp) (simplePrimed_proceeds plan 0 · s.beginRamp)
  | rampBuffered plan =>
    refine running_proceeds_of_idle hs ?_
    dsimp only
    split
    · exact ⟨_, rfl, rfl⟩
    · exact primeFrom_proceeds (s := s.beginRamp) (bufferedPrimed_proceeds plan 0 · s.beginRamp)
  | wireAdcChcfg | wireAdcDisableAll | wireAdcMode | wireAdcDataRead | wireDacWrite | wireDacReadRequest
  | wireDacReadNull | wireDacInit => exact sendFrame_proceeds hs
  | wirePoison => exact ⟨s, by simp [execWirePoison, hs], rfl⟩

/-- What cannot be written at the interface is refused (41 R130). -/
theorem exec_illFormed {i : Instr} (s : State) (hi : i.WellFormed = false) :
    exec i s = .refused .illFormedDescriptor := by
  cases i with
  | buildFrame size count data =>
    have hno : BuildFrameOk size count data = false := hi
    simp [exec, execBuildFrame, hno]
  | _ => exact absurd hi (by simp [Instr.WellFormed])

/-- An instruction issued to an idle block does not fault. -/
theorem exec_ne_fault_of_idle {i : Instr} {s : State} (hs : s.seqpos = .idle) (r : Fault) : exec i s ≠ .fault r := by
  cases hi : i.WellFormed with
  | true => exact (exec_proceeds_of_idle hs hi).ne_fault r
  | false => simp [exec_illFormed s hi]

/-! ### The part of the invariant that keeps a step from faulting -/

/-- An operation in progress rests at one of its points (10 R21). -/
def State.AtPoint (s : State) : Prop := ∀ i k p, s.seqpos = .busy i k p → RestsAt i p

theorem State.Inv.atPoint {s : State} (h : s.Inv) : s.AtPoint := by
  intro i k p hs
  have hpos := h.position
  simp only [State.PositionOk, hs] at hpos
  obtain ⟨_, hrests, _⟩ := hpos
  exact hrests

@[simp] theorem writeCancel_seqpos (s : State) : s.writeCancel.seqpos = s.seqpos := by
  unfold State.writeCancel
  split <;> rfl

@[simp] theorem writeCancel_hostQueue (s : State) : s.writeCancel.hostQueue = s.hostQueue := by
  unfold State.writeCancel
  split <;> rfl

@[simp] theorem resetEvent_hostQueue (n : Nat) (s : State) : (s.resetEvent n).hostQueue = s.hostQueue := by
  unfold State.resetEvent
  split <;> rfl

@[simp] theorem takeSignal_hostQueue (s : State) : s.takeSignal.hostQueue = s.hostQueue := by
  obtain h | ⟨_, h | h | h⟩ := takeSignal_cases s <;> simp [h, State.assertReset]

/-- A signal leaves the position, or starts the reset sequence. -/
theorem takeSignal_atPoint {s : State} (h : s.AtPoint) : s.takeSignal.AtPoint := by
  intro i k p hs
  obtain ht | ⟨_, ht | ht | ht⟩ := takeSignal_cases s <;> rw [ht] at hs
  · exact h i k p hs
  · exact h i k p hs
  · exact h i k p (by simpa using hs)
  · cases hs

/-! ### No step is stopped -/

/-- What is left of an obedient host's queue is an obedient host's (20 R77). -/
theorem State.HostObeys.mono {s t : State} (h : s.HostObeys) (hsub : t.hostQueue ⊆ s.hostQueue) : t.HostObeys :=
  fun d hd => h d (hsub hd)

/-- An obedient host issues an instruction that can be written at the interface, or an opcode outside the map. -/
theorem State.HostObeys.decode_head {s : State} {d : Descriptor} {rest : List Descriptor} (h : s.HostObeys)
    (hh : s.hostQueue = d :: rest) :
    (∃ i, decode s.cfg d = .instr i ∧ i.WellFormed = true) ∨ ∃ o, decode s.cfg d = .illegalOpcode o := by
  obtain ⟨opcode, operands, fits, rfl, hwf⟩ := h d (by simp [hh])
  cases hd : decodeOp opcode operands with
  | some i => exact .inl ⟨i, decode_op.mpr hd, hwf i hd⟩
  | none => exact .inr ⟨opcode, by simp [decode, hd]⟩

theorem stepNow_ne_fault {s : State} (h : s.AtPoint) (r : Fault) : stepNow s ≠ .fault r := by
  cases hs : s.seqpos with
  | busy i k p => exact stepNow_busy hs ▸ (exec_proceeds_of_busy hs (h i k p hs)).ne_fault r
  | resetting n => simp [stepNow_resetting hs]
  | idle =>
    cases hh : s.hostQueue with
    | nil => simp [stepNow_wait hs hh]
    | cons d rest =>
      cases hd : decode s.cfg d with
      | instr i => exact stepNow_issue hs hh hd ▸ exec_ne_fault_of_idle (s := { s with hostQueue := rest }) hs r
      | illegalOpcode o => simp [stepNow_illegal hs hh hd]
      | unknownFrame => simp [stepNow_unknownFrame hs hh hd]

/-- Under an obedient host the block always has a next state, and the host's queue only gets shorter. -/
theorem stepNow_next_of_hostObeys {s : State} (h : s.AtPoint) (ho : s.HostObeys) :
    ∃ t, stepNow s = .next t ∧ t.hostQueue ⊆ s.hostQueue := by
  cases hs : s.seqpos with
  | busy i k p =>
    obtain ⟨t, ht, hq⟩ := exec_proceeds_of_busy hs (h i k p hs)
    exact ⟨t, by rw [stepNow_busy hs, ht], hq ▸ List.Subset.refl _⟩
  | resetting n => exact ⟨_, stepNow_resetting hs, by simp⟩
  | idle =>
    cases hh : s.hostQueue with
    | nil => exact ⟨s, stepNow_wait hs hh, by simp [hh]⟩
    | cons d rest =>
      have htail : rest ⊆ d :: rest := List.subset_cons_self d rest
      obtain ⟨i, hd, hi⟩ | ⟨o, hd⟩ := ho.decode_head hh
      · obtain ⟨t, ht, hq⟩ := exec_proceeds_of_idle (s := { s with hostQueue := rest }) hs hi
        exact ⟨t, by rw [stepNow_issue hs hh hd, ht], hq ▸ htail⟩
      · exact ⟨_, stepNow_illegal hs hh hd, htail⟩

/-- Settles O6: the position is a point of the operation in progress, and from each of its points, as from its start,
an operation has a next event. -/
theorem obedientHostIsNeverStopped : Obligations.ObedientHostIsNeverStopped := by
  unfold Obligations.ObedientHostIsNeverStopped
  intro s hinv
  have hpoint := takeSignal_atPoint hinv.atPoint
  refine ⟨stepNow_ne_fault hpoint, fun ho => ?_⟩
  obtain ⟨t, ht, hsub⟩ := stepNow_next_of_hostObeys hpoint (ho.mono (by simp))
  exact ⟨t, ht, ho.mono (takeSignal_hostQueue s ▸ hsub)⟩

end Sys2Proof.Machine
end

section
/-!
Scope. `GE` and `OS` have no effect: taking a step and forgetting the calibration factors commute.
-/

namespace Sys2Proof.Machine

/-! ### Agreement of outcomes as an equation -/

/-- The outcome with `f` applied to the next state. -/
def mapNext (f : State → State) : Outcome → Outcome
  | .next s => .next (f s)
  | .fault r => .fault r
  | .refused r => .refused r

theorem outcomesAgree_iff {view : State → State} {a b : Outcome} :
    OutcomesAgree view a b ↔ mapNext view a = mapNext view b := by
  cases a <;> cases b <;> simp [OutcomesAgree, mapNext]

/-- Running `body` and forgetting the calibration factors commute: `body` neither reads nor copies them elsewhere. -/
def IgnoresCalibration (body : State → Outcome) : Prop :=
  ∀ s, body s.withoutCalibration = mapNext State.withoutCalibration (body s)

/-! ### Updates of the state -/

/-- A DAC channel's record without its calibration factors. -/
def DacChannel.withoutCalibration (d : DacChannel) : DacChannel := { d with ge := 0, os := 0 }

theorem withoutCalibration_dac (s : State) :
    s.withoutCalibration.dac = s.dac.map DacChannel.withoutCalibration := rfl

/-- An update of one DAC record that leaves its factors as they are. -/
theorem setDac_withoutCalibration (s : State) (c : DacChan) {g : DacChannel → DacChannel}
    (hg : ∀ d, g d.withoutCalibration = (g d).withoutCalibration) :
    ({ s.withoutCalibration with
        dac := s.withoutCalibration.dac.set c (g s.withoutCalibration.dac[c]) } : State) =
      ({ s with dac := s.dac.set c (g s.dac[c]) } : State).withoutCalibration := by
  have hdac : s.withoutCalibration.dac.set c (g s.withoutCalibration.dac[c]) =
      (s.dac.set c (g s.dac[c])).map DacChannel.withoutCalibration := by
    simp [withoutCalibration_dac, hg, Vector.map_set]
  exact congrArg (fun dac => ({ s.withoutCalibration with dac := dac } : State)) hdac

theorem writeDac_withoutCalibration (c : DacChan) (code : DacCode) (s : State) :
    s.withoutCalibration.writeDac c code = (s.writeDac c code).withoutCalibration :=
  setDac_withoutCalibration (s.transfer (.sync c) (writeFrame s.cfg code).toList) c
    (g := fun d => { d with lastCode := some code }) fun _ => rfl

theorem readDacBack_withoutCalibration (c : DacChan) (s : State) :
    s.withoutCalibration.readDacBack c = (s.readDacBack c).withoutCalibration :=
  setDac_withoutCalibration (s.transfer (.sync c) nullFrame.toList) c
    (g := fun d => { d with
      lastReadCode := some s.nextDacCode, lastReadVoltage := some (codeToVoltage s.nextDacCode) }) fun _ => rfl

theorem countPass_withoutCalibration (pass : Nat) (s : State) :
    s.withoutCalibration.countPass pass = (s.countPass pass).withoutCalibration := by
  simp only [State.countPass, apply_ite State.withoutCalibration]
  rfl

/-- The status record does not show the factors (47 R250). -/
theorem status_withoutCalibration (s : State) : s.withoutCalibration.status = s.status := by
  have hdac : s.withoutCalibration.dac.map DacChannel.status = s.dac.map DacChannel.status := by
    rw [withoutCalibration_dac, Vector.map_map]
    rfl
  exact congrArg (fun dac => ({ s.status with dac := dac } : StatusRecord)) hdac

/-- Reset takes the factors from the parameters (10 R26, R33). -/
theorem reset_withoutCalibration (s : State) (c : DacChan) :
    DacChannel.reset s.withoutCalibration.cfg c = (DacChannel.reset s.cfg c).withoutCalibration := by
  simp [DacChannel.reset, DacChannel.withoutCalibration, State.withoutCalibration]

theorem assertReset_withoutCalibration (s : State) :
    s.withoutCalibration.assertReset = s.assertReset.withoutCalibration := by
  have hdac : s.withoutCalibration.assertReset.dac = s.assertReset.dac.map DacChannel.withoutCalibration := by
    simp [State.assertReset, reset_withoutCalibration]
  exact congrArg (fun dac => ({ s.withoutCalibration.assertReset with dac := dac } : State)) hdac

theorem resetEvent_withoutCalibration (n : Nat) (s : State) :
    s.withoutCalibration.resetEvent n = (s.resetEvent n).withoutCalibration := by
  match n with
  | 0 | 1 | _ + 2 => rfl

theorem writeCancel_withoutCalibration (s : State) :
    s.withoutCalibration.writeCancel = s.writeCancel.withoutCalibration := by
  simp only [State.writeCancel, apply_ite State.withoutCalibration]
  rfl

theorem takeSignal_withoutCalibration (s : State) :
    s.withoutCalibration.takeSignal = s.takeSignal.withoutCalibration := by
  have hsame : s.withoutCalibration.signals = s.signals := rfl
  unfold State.takeSignal
  rw [hsame]
  cases s.signals with
  | nil => rfl
  | cons signal rest =>
    cases signal with
    | quiet => rfl
    | cancel => exact writeCancel_withoutCalibration { s with signals := rest }
    | reset => exact assertReset_withoutCalibration { s with signals := rest }

/-! ### The shared parts of operations -/

theorem next_pause_withoutCalibration {t' t : State} (h : t' = t.withoutCalibration) (i : Instr) (k : Nat)
    (p : Point) : .next (t'.pause i k p) = mapNext State.withoutCalibration (.next (t.pause i k p)) := by
  subst h
  rfl

theorem running_ignoresCalibration {i : Instr} {body : Nat → Point → State → Outcome}
    (h : ∀ k p, IgnoresCalibration (body k p)) : IgnoresCalibration fun s => running i s body := by
  intro s
  have hsame : s.withoutCalibration.pointOf i = s.pointOf i := rfl
  simp only [running, hsame]
  cases s.pointOf i with
  | none => rfl
  | some place => exact h place.1 place.2 s

theorem completing_ignoresCalibration (i : Instr) (err : Err) (value : Value) :
    IgnoresCalibration (completing i err value) :=
  running_ignoresCalibration fun _ p _ => by cases p <;> rfl

theorem sendFrame_ignoresCalibration (line : Line) (bytes : List Byte) :
    IgnoresCalibration (sendFrame line bytes) := by
  intro s
  have hsame : s.withoutCalibration.seqpos = s.seqpos := rfl
  simp only [sendFrame, hsame]
  cases s.seqpos <;> rfl

theorem pollStep_ignoresCalibration (i : Instr) (k polls : Nat) (ready expired again : Point) :
    IgnoresCalibration (pollStep i k polls ready expired again) := fun _ => rfl

theorem startPass_ignoresCalibration (i : Instr) (k : Nat) (pass : Pass) (todo : List AdcChan) :
    IgnoresCalibration (startPass i k pass todo) := fun _ => rfl

theorem resumePass_ignoresCalibration {i : Instr} {atEnd onTimeout : Pass → State → Outcome}
    (hend : ∀ pass, IgnoresCalibration (atEnd pass)) (htimeout : ∀ pass, IgnoresCalibration (onTimeout pass))
    (k : Nat) (p : Point) : IgnoresCalibration (resumePass i atEnd onTimeout k p) := by
  intro s
  cases p with
  | passNext pass todo =>
    cases todo with
    | nil => exact hend pass { s with adcState := .idle }
    | cons => rfl
  | passTimedOut pass => exact htimeout pass { s with adcState := .idle }
  | _ => rfl

theorem finishReading_ignoresCalibration (pass : Pass) : IgnoresCalibration (finishReading pass) := by
  cases pass <;> exact fun _ => rfl

theorem abortReading_ignoresCalibration (pass : Pass) : IgnoresCalibration (abortReading pass) := by
  cases pass <;> exact fun _ => rfl

theorem readDac_ignoresCalibration (i : Instr) (c : DacChan) (result : DacCode → Value) (k : Nat) (p : Point) :
    IgnoresCalibration (readDac i c result k p) := by
  intro s
  cases p with
  | readRequested =>
    exact next_pause_withoutCalibration (readDacBack_withoutCalibration c s) _ _ _
  | _ => rfl

theorem initNext_ignoresCalibration (k : Nat) (todo : List DacChan) : IgnoresCalibration (initNext k todo) := by
  cases todo <;> exact fun _ => rfl

theorem primeFrom_ignoresCalibration {i : Instr} {v : Vector Volts 4} {primed : RampRegs → State → Outcome}
    (hprimed : ∀ regs, IgnoresCalibration (primed regs)) (k : Nat) (regs : RampRegs) (todo : List DacChan) :
    IgnoresCalibration (primeFrom i v primed k regs todo) := by
  intro s
  unfold primeFrom
  generalize skipOverrange (fun c => v[c]) regs.rampErr todo = found
  obtain ⟨err, _ | ⟨c, rest⟩⟩ := found
  · exact hprimed { regs with rampErr := err } s
  · exact next_pause_withoutCalibration (writeDac_withoutCalibration c _ s) _ _ _

theorem resumePrime_ignoresCalibration {i : Instr} {v : Vector Volts 4} {primed : RampRegs → State → Outcome}
    (hprimed : ∀ regs, IgnoresCalibration (primed regs)) (k : Nat) (p : Point) :
    IgnoresCalibration (resumePrime i v primed k p) := by
  cases p with
  | primeNext regs todo => exact primeFrom_ignoresCalibration hprimed k regs todo
  | _ => exact fun _ => rfl

theorem stepFrom_ignoresCalibration (i : Instr) (plan : Plan) (k : Nat) (regs : RampRegs) (todo : List DacChan) :
    IgnoresCalibration (stepFrom i plan k regs todo) := by
  intro s
  unfold stepFrom
  generalize skipOverrange (stepVoltage plan regs) regs.rampErr todo = found
  obtain ⟨err, _ | ⟨c, rest⟩⟩ := found
  · rfl
  · exact next_pause_withoutCalibration (writeDac_withoutCalibration c _ s) _ _ _

theorem stepBoundary_ignoresCalibration (i : Instr) (plan : Plan) (passes : BitVec 32) (k : Nat) (regs : RampRegs) :
    IgnoresCalibration (stepBoundary i plan passes k regs) := by
  intro s
  have hsame : s.withoutCalibration.cancelBit = s.cancelBit := rfl
  unfold stepBoundary
  rw [hsame]
  split
  · rfl
  · split
    · rfl
    · exact stepFrom_ignoresCalibration i plan k regs _ s

theorem resumeStep_ignoresCalibration (i : Instr) (plan : Plan) (k : Nat) (p : Point) :
    IgnoresCalibration (resumeStep i plan k p) := by
  cases p with
  | stepNext regs todo => exact stepFrom_ignoresCalibration i plan k regs todo
  | _ => exact fun _ => rfl

theorem endRampPass_ignoresCalibration (i : Instr) (plan : Plan) (k : Nat) (pass : Pass) :
    IgnoresCalibration (endRampPass i plan k pass) := by
  intro s
  cases pass with
  | reading => rfl
  | ramp regs n =>
    dsimp only [endRampPass]
    rw [countPass_withoutCalibration]
    split
    · rfl
    · exact stepBoundary_ignoresCalibration i plan _ k _ (s.countPass n)

theorem abortRamp_ignoresCalibration (pass : Pass) : IgnoresCalibration (abortRamp pass) := by
  cases pass <;> exact fun _ => rfl

theorem simplePrimed_ignoresCalibration (plan : Plan) (k : Nat) (regs : RampRegs) :
    IgnoresCalibration (simplePrimed plan k regs) :=
  fun s => stepBoundary_ignoresCalibration _ plan 0 k _ (s.primed .steppingWithoutCapture)

theorem bufferedPrimed_ignoresCalibration (plan : Plan) (k : Nat) (regs : RampRegs) :
    IgnoresCalibration (bufferedPrimed plan k regs) := fun _ => rfl

/-! ### Operations -/

theorem execDacSetVoltage_ignoresCalibration (channel : DacChan) (v : Volts) (updateOutputs : Bool) :
    IgnoresCalibration (execDacSetVoltage channel v updateOutputs) := by
  refine running_ignoresCalibration fun k p s => ?_
  cases p with
  | start =>
    have hsame : s.withoutCalibration.cfg.rounding = s.cfg.rounding := rfl
    dsimp only
    rw [hsame]
    cases voltageToCode s.cfg.rounding v with
    | none => rfl
    | some code =>
      exact next_pause_withoutCalibration (writeDac_withoutCalibration channel code s) _ _ _
  | _ => rfl

theorem execRampPrime_ignoresCalibration (mask : BitVec 4) (vInitial : Vector Volts 4) :
    IgnoresCalibration (execRampPrime mask vInitial) := by
  refine running_ignoresCalibration fun k p => ?_
  cases p with
  | start => exact primeFrom_ignoresCalibration (fun _ _ => rfl) k _ _
  | _ => exact resumePrime_ignoresCalibration (fun _ _ => rfl) k _

theorem execRampSimple_ignoresCalibration (plan : Plan) : IgnoresCalibration (execRampSimple plan) := by
  refine running_ignoresCalibration fun k p s => ?_
  cases p with
  | start =>
    dsimp only
    cases rampDeltas plan with
    | none => rfl
    | some dv => exact primeFrom_ignoresCalibration (simplePrimed_ignoresCalibration plan k) k _ _ s.beginRamp
  | primeWrote | primeLowered | primeNext =>
    exact resumePrime_ignoresCalibration (simplePrimed_ignoresCalibration plan k) k _ s
  | slept => exact stepBoundary_ignoresCalibration _ plan 0 k _ s
  | _ => exact resumeStep_ignoresCalibration _ plan k _ s

theorem execRampBuffered_ignoresCalibration (plan : Plan) : IgnoresCalibration (execRampBuffered plan) := by
  refine running_ignoresCalibration fun k p s => ?_
  cases p with
  | start =>
    dsimp only
    cases rampDeltas plan with
    | none => rfl
    | some dv => exact primeFrom_ignoresCalibration (bufferedPrimed_ignoresCalibration plan k) k _ _ s.beginRamp
  | primeWrote | primeLowered | primeNext =>
    exact resumePrime_ignoresCalibration (bufferedPrimed_ignoresCalibration plan k) k _ s
  | stepNext | stepLowered | stepRaised => exact resumeStep_ignoresCalibration _ plan k _ s
  | slept => exact startPass_ignoresCalibration _ k _ _ s
  | _ =>
    exact resumePass_ignoresCalibration (endRampPass_ignoresCalibration _ plan k) abortRamp_ignoresCalibration k _ s

/-- No instruction reads the factors (10 R26, 45 R218). -/
theorem exec_ignoresCalibration (i : Instr) : IgnoresCalibration (exec i) := by
  intro s
  unfold exec
  cases i with
  | buildFrame size count data =>
    dsimp only [execBuildFrame]
    split
    · split <;> exact completing_ignoresCalibration _ _ _ s
    · rfl
  | adcCfgEncode | adcCfgDecode | adcDisableAllEncode | dacC2v | dacReadDecode | adcCodeDecode =>
    exact completing_ignoresCalibration _ _ _ s
  | dacWriteEncode code => exact completing_ignoresCalibration _ .none (.bytes3 (writeFrame s.cfg code)) s
  | dacV2c v =>
    have hsame : s.withoutCalibration.cfg.rounding = s.cfg.rounding := rfl
    dsimp only [execDacV2c]
    rw [hsame]
    cases voltageToCode s.cfg.rounding v <;> exact completing_ignoresCalibration _ _ _ s
  | rampPlan plan =>
    dsimp only [execRampPlan]
    cases rampDeltas plan <;> exact completing_ignoresCalibration _ _ _ s
  | readStatus =>
    dsimp only [execReadStatus]
    rw [status_withoutCalibration]
    exact completing_ignoresCalibration _ _ _ s
  | adcConfigureChannel =>
    refine running_ignoresCalibration (fun k p s => ?_) s
    cases p with
    | start =>
      dsimp only
      split <;> rfl
    | _ => rfl
  | adcDisableAll | adcSelectMode | adcWaitDrdy | adcReadChannel | dacUpdateOutputs =>
    exact running_ignoresCalibration (fun k p s => by cases p <;> rfl) s
  | adcFullReading =>
    refine running_ignoresCalibration (fun k p s => ?_) s
    cases p with
    | start => rfl
    | _ => exact resumePass_ignoresCalibration finishReading_ignoresCalibration abortReading_ignoresCalibration k _ s
  | dacInitAll =>
    refine running_ignoresCalibration (fun k p s => ?_) s
    cases p with
    | start | initNext => exact initNext_ignoresCalibration k _ s
    | _ => rfl
  | dacSetVoltage channel v updateOutputs => exact execDacSetVoltage_ignoresCalibration channel v updateOutputs s
  | dacReadVoltage | dacReadRegister => exact running_ignoresCalibration (readDac_ignoresCalibration _ _ _) s
  | rampPrime mask vInitial => exact execRampPrime_ignoresCalibration mask vInitial s
  | rampSimple plan => exact execRampSimple_ignoresCalibration plan s
  | rampBuffered plan => exact execRampBuffered_ignoresCalibration plan s
  | wireAdcChcfg | wireAdcDisableAll => exact sendFrame_ignoresCalibration _ _ s
  | wireAdcMode => exact sendFrame_ignoresCalibration _ s.cfg.adcModeFrame.toList s
  | wireAdcDataRead => exact sendFrame_ignoresCalibration _ (dataReadPattern s.cfg) s
  | wireDacWrite channel code =>
    exact sendFrame_ignoresCalibration _ (bytesOfPattern (dacWriteWord s.cfg.dacWriteNibble code)).toList s
  | wireDacReadRequest => exact sendFrame_ignoresCalibration _ s.cfg.dacReadReq.toList s
  | wireDacReadNull => exact sendFrame_ignoresCalibration _ _ s
  | wireDacInit => exact sendFrame_ignoresCalibration _ s.cfg.dacInitFrame.toList s
  | wirePoison =>
    have hsame : s.withoutCalibration.seqpos = s.seqpos := rfl
    simp only [execWirePoison, hsame]
    cases s.seqpos <;> rfl

/-! ### Steps -/

/-- The decoder reads the parameter frames only (30 R90 to R101). -/
theorem decode_withoutCalibration (s : State) (d : Descriptor) :
    decode s.withoutCalibration.cfg d = decode s.cfg d := rfl

theorem stepNow_ignoresCalibration : IgnoresCalibration stepNow := by
  intro s
  cases hs : s.seqpos with
  | busy i k p =>
    rw [stepNow_busy hs, stepNow_busy (s := s.withoutCalibration) hs, exec_ignoresCalibration]
  | resetting n =>
    rw [stepNow_resetting hs, stepNow_resetting (s := s.withoutCalibration) hs, resetEvent_withoutCalibration]
    rfl
  | idle =>
    have hs' : s.withoutCalibration.seqpos = .idle := hs
    cases hh : s.hostQueue with
    | nil =>
      rw [stepNow_wait hs hh, stepNow_wait hs' hh]
      rfl
    | cons d rest =>
      have hh' : s.withoutCalibration.hostQueue = d :: rest := hh
      have hsame := decode_withoutCalibration s d
      cases hd : decode s.cfg d with
      | instr i =>
        rw [stepNow_issue hs hh hd, stepNow_issue hs' hh' (hsame.trans hd)]
        exact exec_ignoresCalibration i { s with hostQueue := rest }
      | illegalOpcode o =>
        rw [stepNow_illegal hs hh hd, stepNow_illegal hs' hh' (hsame.trans hd)]
        rfl
      | unknownFrame =>
        rw [stepNow_unknownFrame hs hh hd, stepNow_unknownFrame hs' hh' (hsame.trans hd)]
        rfl

theorem step_ignoresCalibration : IgnoresCalibration step := by
  intro s
  unfold step
  rw [takeSignal_withoutCalibration]
  exact stepNow_ignoresCalibration s.takeSignal

/-- Settles O57: the steps of both states are, but for the factors, the step of the one state without them. -/
theorem calibrationHasNoEffect : Obligations.CalibrationHasNoEffect := by
  unfold Obligations.CalibrationHasNoEffect
  intro s u h
  rw [outcomesAgree_iff]
  calc mapNext State.withoutCalibration (step s)
      = step s.withoutCalibration := (step_ignoresCalibration s).symm
    _ = step u.withoutCalibration := by rw [h]
    _ = mapNext State.withoutCalibration (step u) := step_ignoresCalibration u

end Sys2Proof.Machine
end

section
/-!
Scope. What one step of an operation writes. `exec_takes` says it once for every instruction; who may write which field
(10 R21 to R32) is then read off the event made.
-/

namespace Sys2Proof

/-! ### Which instruction may write which field -/

/-- The instructions that write `lastCode` of channel `c` (10 R26, 45 R211, 46 R232, R234). -/
def Instr.WritesCode (c : DacChan) : Instr → Prop
  | .dacSetVoltage d _ _ => d = c
  | .rampPrime .. | .rampSimple _ | .rampBuffered _ => True
  | _ => False

/-- The readbacks of channel `c` (45 R215). -/
def Instr.ReadsBack (c : DacChan) : Instr → Prop
  | .dacReadVoltage d | .dacReadRegister d => d = c
  | _ => False

/-- The instructions with a latch pulse (45 R213). -/
def Instr.Pulses : Instr → Prop
  | .dacSetVoltage .. | .dacUpdateOutputs | .rampPrime .. | .rampSimple _ | .rampBuffered _ => True
  | _ => False

/-- The instructions that write `enabled` of channel `c` (44 R190, R191). -/
def Instr.WritesEnabled (c : AdcChan) : Instr → Prop
  | .adcConfigureChannel d .. => d = c
  | .adcDisableAll => True
  | _ => False

/-- The instructions that file a result under channel `c` (44 R195). -/
def Instr.FilesResult (c : AdcChan) : Instr → Prop
  | .adcReadChannel d => d = c
  | .adcFullReading | .rampBuffered _ => True
  | _ => False

/-- The instructions that write `adcState` (44 R199). -/
def Instr.WritesAdcState : Instr → Prop
  | .adcSelectMode | .adcWaitDrdy | .adcReadChannel _ | .adcFullReading | .rampBuffered _ => True
  | _ => False

theorem Instr.FilesResult.writesAdcState {i : Instr} {c : AdcChan} (h : i.FilesResult c) : i.WritesAdcState := by
  cases i with
  | adcReadChannel | adcFullReading | rampBuffered => trivial
  | _ => exact False.elim h

end Sys2Proof

namespace Sys2Proof.Machine

/-- The instruction is a ramp that is accepted: in progress, or issued with a plan that has steps (46 R236, R237). -/
def State.Ramps (s : State) : Instr → Prop
  | .rampSimple plan | .rampBuffered plan => plan.stepCount = 0 → ¬s.IsIdle
  | _ => False

/-! ### The writes of a step before its event -/

/-- `u` is `s` after writes that have no event of their own and fall in the step of the next event (00 R15, log 7). -/
structure Prepares (i : Instr) (s u : State) : Prop where
  same : u = { s with
    adcState := u.adcState, rampState := u.rampState, cancelReq := u.cancelReq, rampStepsDone := u.rampStepsDone,
    rampCancelled := u.rampCancelled, rampPasses := u.rampPasses }
  adcState : i.WritesAdcState ∨ u.adcState = s.adcState
  ramp : s.Ramps i ∨ (u.rampState = s.rampState ∧ u.rampStepsDone = s.rampStepsDone ∧
    u.rampCancelled = s.rampCancelled ∧ u.rampPasses = s.rampPasses ∧ u.cancelReq = s.cancelReq)
  cancelReq : u.cancelReq = s.cancelReq ∨ u.cancelReq = false

theorem Prepares.refl {i : Instr} {s : State} : Prepares i s s :=
  ⟨rfl, .inr rfl, .inr ⟨rfl, rfl, rfl, rfl, rfl⟩, .inl rfl⟩

theorem Prepares.writeAdcState {i : Instr} {s u : State} (a : AdcState) (hi : i.WritesAdcState)
    (h : Prepares i s u) : Prepares i s { u with adcState := a } where
  same := by rw [h.same]
  adcState := .inl hi
  ramp := h.ramp
  cancelReq := h.cancelReq

/-- An accepted ramp may write its own fields, but `cancelReq` only to clear it (10 R30, R31, 46 R238). -/
theorem Prepares.writeRamp {i : Instr} {s u w : State} (hi : s.Ramps i) (h : Prepares i s u)
    (hsame : w = { u with
      rampState := w.rampState, cancelReq := w.cancelReq, rampStepsDone := w.rampStepsDone,
      rampCancelled := w.rampCancelled, rampPasses := w.rampPasses })
    (hcancel : w.cancelReq = u.cancelReq ∨ w.cancelReq = false) : Prepares i s w where
  same := by rw [hsame, h.same]
  adcState := by rw [hsame]; exact h.adcState
  ramp := .inl hi
  cancelReq := hcancel.elim (fun hc => hc ▸ h.cancelReq) .inr

/-! ### The event of a step -/

/-- The event `e` takes `u` to `v`, the position aside, and operation `i` may make it: one constructor per event of the
drivers. -/
inductive Acts (i : Instr) (u : State) : Event → State → Prop where
  | complete (err : Err) (value : Value) : Acts i u (.complete err value) (u.complete err value)
  | transfer (line : Line) (bytes : List Byte) :
    Acts i u (.transfer line (oneBlock bytes) false (u.rxFor bytes.length)) (u.transfer line bytes)
  | enable (bytes : List Byte) (enabled : Vector Bool 16)
    (h : ∀ c : AdcChan, i.WritesEnabled c ∨ enabled[c] = u.enabled[c]) :
    Acts i u (.transfer .adcSelect (oneBlock bytes) false (u.rxFor bytes.length))
      { u.transfer .adcSelect bytes with enabled := enabled }
  | poll : Acts i u (.readLevel .drdy u.levelNow) u.pollDrdy
  | readChannel (c : AdcChan) (h : i.FilesResult c) :
    Acts i u (.transfer .adcSelect (oneBlock (dataReadPattern u.cfg)) false (u.rxFor 4)) (u.readChannel c)
  | writeDac (c : DacChan) (code : DacCode) (h : i.WritesCode c) :
    Acts i u (.transfer (.sync c) (oneBlock (writeFrame u.cfg code).toList) false (u.rxFor 3)) (u.writeDac c code)
  | readDacBack (c : DacChan) (h : i.ReadsBack c) :
    Acts i u (.transfer (.sync c) (oneBlock nullFrame.toList) false (u.rxFor 3)) (u.readDacBack c)
  | setLatch (lvl : Level) (h : i.Pulses) : Acts i u (.setLevel .latch lvl) (u.setLatch lvl)
  | sleep (ms : BitVec 32) : Acts i u (.sleep ms) (u.sleep ms)
  | emit (r : CaptureRecord) : Acts i u (.emit r) (u.emit r)

/-- The position after the event `e` of operation `i`: idle after a `Complete` and after a frame sent alone, else the
operation rests, its event count one more (10 R21). -/
inductive PositionAfter (i : Instr) (s : State) : Event → SeqPos → Prop where
  | completed (err : Err) (value : Value) : PositionAfter i s (.complete err value) .idle
  | rests {e : Event} {k : Nat} {p : Point} (he : e.isComplete = false) (hp : s.pointOf i = some (k, p)) (q : Point) :
    PositionAfter i s e (.busy i (k + 1) q)
  | sent {e : Event} (he : e.isComplete = false) (hs : s.seqpos = .idle) : PositionAfter i s e .idle

/-- One step of operation `i`: writes without an event, one event, the position. Only the poison frame, which is never
transferred, leaves the state as it is (log 14). -/
inductive Takes (i : Instr) (s : State) : State → Prop where
  | stays (hs : s.seqpos = .idle) : Takes i s s
  | does {u v : State} {e : Event} {q : SeqPos} (hu : Prepares i s u) (hv : Acts i u e v)
    (hq : PositionAfter i s e q) : Takes i s { v with seqpos := q }

section Takes

variable {i : Instr} {s u v : State} {e : Event} {k : Nat} {p : Point}

theorem Takes.completes {err : Err} {value : Value} (hu : Prepares i s u) : Takes i s (u.complete err value) :=
  .does hu (.complete err value) (.completed err value)

theorem Takes.rests {q : Point} (hp : s.pointOf i = some (k, p)) (hu : Prepares i s u) (hv : Acts i u e v)
    (he : e.isComplete = false) : Takes i s (v.pause i (k + 1) q) :=
  .does hu hv (.rests he hp q)

/-- The mode frame and its write of `adcState` (44 R192, R199). -/
theorem Takes.sendsMode {q : Point} (hp : s.pointOf i = some (k, p)) (hu : Prepares i s u) (hi : i.WritesAdcState) :
    Takes i s (u.sendMode.pause i (k + 1) q) :=
  .rests hp (hu.writeAdcState .modeSelected hi) (.transfer .adcSelect u.cfg.adcModeFrame.toList) rfl

theorem Takes.sends {line : Line} {bytes : List Byte} {t : State} (h : sendFrame line bytes s = .next t) :
    Takes i s t := by
  obtain ⟨hs, rfl⟩ := sendFrame_next h
  have hsame : s.transfer line bytes = { s.transfer line bytes with seqpos := .idle } := by rw [← hs]; rfl
  rw [hsame]
  exact .does .refl (.transfer line bytes) (.sent rfl hs)

end Takes

/-! ### The shared parts of operations -/

/-- An operation that answers a next state ran from where it stands. -/
theorem running_pointOf {i : Instr} {s t : State} {body : Nat → Point → State → Outcome}
    (h : running i s body = .next t) : ∃ k p, s.pointOf i = some (k, p) ∧ body k p s = .next t := by
  obtain ⟨hs, h⟩ | ⟨k, p, hs, h⟩ := running_next h
  · exact ⟨0, .start, pointOf_idle hs, h⟩
  · exact ⟨k, p, pointOf_busy hs, h⟩

/-- An operation past its start is in progress. -/
theorem not_isIdle_of_pointOf {i : Instr} {s : State} {k : Nat} {p : Point} (h : s.pointOf i = some (k, p))
    (hp : p ≠ .start) : ¬s.IsIdle := by
  obtain ⟨_, _, hstart⟩ | hs := pointOf_cases h
  · exact absurd hstart hp
  · simp [State.IsIdle, hs]

theorem completing_takes {i : Instr} {err : Err} {value : Value} {s t : State}
    (h : completing i err value s = .next t) : Takes i s t := by
  obtain rfl := completing_next h
  exact .completes .refl

section Shared

variable {i : Instr} {s u t : State} {k k' : Nat} {p p' : Point} (hp : s.pointOf i = some (k, p)) (hu : Prepares i s u)

include hp hu

theorem pollStep_takes {polls : Nat} {ready expired again : Point}
    (h : pollStep i k polls ready expired again u = .next t) : Takes i s t := by
  cases h
  exact .rests hp hu .poll rfl

theorem startPass_takes {pass : Pass} {todo : List AdcChan} (hi : i.WritesAdcState)
    (h : startPass i k pass todo u = .next t) : Takes i s t := by
  cases h
  exact .sendsMode hp hu hi

theorem resumePass_takes {atEnd onTimeout : Pass → State → Outcome} (hi : ∀ c, i.FilesResult c)
    (hend : ∀ pass u, Prepares i s u → atEnd pass u = .next t → Takes i s t)
    (htimeout : ∀ pass u, Prepares i s u → onTimeout pass u = .next t → Takes i s t)
    (h : resumePass i atEnd onTimeout k p' u = .next t) : Takes i s t := by
  have hadc : i.WritesAdcState := (hi 0).writesAdcState
  obtain ⟨pass, _, h⟩ | ⟨_, _, _, _, h⟩ | ⟨_, _, _, _, _, h⟩ | ⟨_, c, _, _, rfl⟩ | ⟨_, _, _, _, _, _, _, rfl⟩ |
    ⟨pass, _, h⟩ := resumePass_next h
  · exact hend pass _ (hu.writeAdcState .idle hadc) h
  · exact pollStep_takes hp (hu.writeAdcState .awaitingDataReady hadc) h
  · exact pollStep_takes hp hu h
  · exact .rests hp hu (.readChannel c (hi c)) rfl
  · exact .rests hp hu (.emit _) rfl
  · exact htimeout pass _ (hu.writeAdcState .idle hadc) h

theorem readDac_takes {c : DacChan} {result : DacCode → Value} (hi : i.ReadsBack c)
    (h : readDac i c result k p' u = .next t) : Takes i s t := by
  obtain ⟨_, rfl⟩ | ⟨_, rfl⟩ | ⟨_, _, _, rfl⟩ := readDac_next h
  · exact .rests hp hu (.transfer _ _) rfl
  · exact .rests hp hu (.readDacBack c hi) rfl
  · exact .completes hu

theorem primeFrom_takes {vInitial : Vector Volts 4} {primed : RampRegs → State → Outcome} {regs : RampRegs}
    {todo : List DacChan} (hi : ∀ c, i.WritesCode c) (hprimed : ∀ regs, primed regs u = .next t → Takes i s t)
    (h : primeFrom i vInitial primed k regs todo u = .next t) : Takes i s t := by
  obtain ⟨_, _, h | ⟨c, _, rfl⟩⟩ := primeFrom_next h
  · exact hprimed _ h
  · exact .rests hp hu (.writeDac c _ (hi c)) rfl

theorem resumePrime_takes {vInitial : Vector Volts 4} {primed : RampRegs → State → Outcome}
    (hi : ∀ c, i.WritesCode c) (hpulses : i.Pulses) (hprimed : ∀ regs, primed regs u = .next t → Takes i s t)
    (h : resumePrime i vInitial primed k p' u = .next t) : Takes i s t := by
  obtain ⟨_, _, _, rfl⟩ | ⟨_, _, _, rfl⟩ | ⟨_, _, _, h⟩ := resumePrime_next h
  · exact .rests hp hu (.setLatch .low hpulses) rfl
  · exact .rests hp hu (.setLatch .high hpulses) rfl
  · exact primeFrom_takes hp hu hi hprimed h

theorem stepFrom_takes {plan : Plan} {regs : RampRegs} {todo : List DacChan} (hi : ∀ c, i.WritesCode c)
    (hpulses : i.Pulses) (h : stepFrom i plan k regs todo u = .next t) : Takes i s t := by
  obtain ⟨_, _, heq | ⟨c, _, heq⟩⟩ := stepFrom_next i plan k regs todo u <;> cases heq.symm.trans h
  · exact .rests hp hu (.setLatch .low hpulses) rfl
  · exact .rests hp hu (.writeDac c _ (hi c)) rfl

omit hp in
theorem endRamp_takes {err : Err} {cancelled : Bool} {passes : BitVec 32} (hr : s.Ramps i) :
    Takes i s (u.endRamp err cancelled passes) :=
  .completes (hu.writeRamp hr rfl (.inr rfl))

theorem stepBoundary_takes {plan : Plan} {passes : BitVec 32} {regs : RampRegs} (hi : ∀ c, i.WritesCode c)
    (hpulses : i.Pulses) (hr : s.Ramps i) (h : stepBoundary i plan passes k regs u = .next t) :
    Takes i s t := by
  obtain ⟨_, heq⟩ | ⟨_, _, heq⟩ | ⟨_, _, heq⟩ := stepBoundary_cases i plan passes k regs u
  · cases heq.symm.trans h
    exact endRamp_takes hu hr
  · cases heq.symm.trans h
    have hcancelled : Prepares i s { u with rampCancelled := true } := hu.writeRamp hr rfl (.inl rfl)
    exact endRamp_takes hcancelled hr
  · exact stepFrom_takes hp hu hi hpulses (heq.symm.trans h)

theorem resumeStep_takes {plan : Plan} (hi : ∀ c, i.WritesCode c) (hpulses : i.Pulses) (hr : s.Ramps i)
    (h : resumeStep i plan k p' u = .next t) : Takes i s t := by
  obtain ⟨_, _, _, h⟩ | ⟨regs, _, rfl⟩ | ⟨_, _, rfl⟩ := resumeStep_next h
  · exact stepFrom_takes hp hu hi hpulses h
  · have hcount : Prepares i s { u with rampStepsDone := BitVec.ofNat 32 regs.step } :=
      hu.writeRamp hr rfl (.inl rfl)
    exact .rests hp hcount (.setLatch .high hpulses) rfl
  · exact .rests hp hu (.sleep _) rfl

end Shared

/-- Counting a pass writes `RAMP_PASSES` only (46 R237). -/
theorem countPass_eq (pass : Nat) (s : State) :
    s.countPass pass = { s with rampPasses := (s.countPass pass).rampPasses } := by
  unfold State.countPass
  split
  · rfl
  · split <;> rfl

theorem countPass_prepares {i : Instr} {s u : State} (pass : Nat) (hr : s.Ramps i) (hu : Prepares i s u) :
    Prepares i s (u.countPass pass) := by
  rw [countPass_eq]
  exact hu.writeRamp hr rfl (.inl rfl)

/-! ### Operations -/

theorem execAdcConfigureChannel_takes {channel : AdcChan} {state setup p n : BitVec 32} {s t : State}
    (h : execAdcConfigureChannel channel state setup p n s = .next t) :
    Takes (.adcConfigureChannel channel state setup p n) s t := by
  obtain ⟨k, pt, hp, h⟩ := running_pointOf h
  cases pt with
  | start =>
    dsimp only at h
    split at h <;> cases h
    · refine .rests hp .refl (.enable _ _ fun c => ?_) rfl
      by_cases hc : channel = c
      · exact .inl hc
      · exact .inr (Vector.getElem_set_ne _ _ (Fin.val_ne_of_ne hc))
    · exact .completes .refl
  | finish => cases h; exact .completes .refl
  | _ => cases h

theorem execDacSetVoltage_takes {channel : DacChan} {v : Volts} {updateOutputs : Bool} {s t : State}
    (h : execDacSetVoltage channel v updateOutputs s = .next t) :
    Takes (.dacSetVoltage channel v updateOutputs) s t := by
  obtain ⟨k, p, hp, h⟩ := running_pointOf h
  cases p with
  | start =>
    dsimp only at h
    split at h <;> cases h
    · exact .completes .refl
    · exact .rests hp .refl (.writeDac channel _ rfl) rfl
  | wrote => cases h; exact .rests hp .refl (.setLatch .low trivial) rfl
  | lowered => cases h; exact .rests hp .refl (.setLatch .high trivial) rfl
  | finish => cases h; exact .completes .refl
  | _ => cases h

theorem execAdcFullReading_takes {s t : State} (h : execAdcFullReading s = .next t) :
    Takes .adcFullReading s t := by
  obtain ⟨k, p, hp, h⟩ := running_pointOf h
  have hend (pass u) (hu : Prepares .adcFullReading s u) (h : finishReading pass u = .next t) :
      Takes .adcFullReading s t := by
    cases pass <;> cases h
    exact .completes hu
  have htimeout (pass u) (hu : Prepares .adcFullReading s u) (h : abortReading pass u = .next t) :
      Takes .adcFullReading s t := by
    cases pass <;> cases h
    exact .completes hu
  cases p with
  | start => exact startPass_takes hp .refl trivial h
  | _ => exact resumePass_takes hp .refl (fun _ => trivial) hend htimeout h

theorem execRampPrime_takes {mask : BitVec 4} {vInitial : Vector Volts 4} {s t : State}
    (h : execRampPrime mask vInitial s = .next t) : Takes (.rampPrime mask vInitial) s t := by
  obtain ⟨k, p, hp, h⟩ := running_pointOf h
  have hprimed (regs : RampRegs) (h : (.next (s.complete regs.rampErr .unit) : Outcome) = .next t) :
      Takes (.rampPrime mask vInitial) s t := by
    cases h
    exact .completes .refl
  cases p with
  | start => exact primeFrom_takes hp .refl (fun _ => trivial) hprimed h
  | _ => exact resumePrime_takes hp .refl (fun _ => trivial) trivial hprimed h

/-- An accepted plan has steps (46 R230). -/
theorem stepCount_ne_zero {plan : Plan} {dv : Vector (Option Volts) 4} (h : rampDeltas plan = some dv) :
    plan.stepCount ≠ 0 := by
  intro h0
  rw [rampDeltas_none.mpr h0] at h
  cases h

theorem execRampSimple_takes {plan : Plan} {s t : State} (h : execRampSimple plan s = .next t) :
    Takes (.rampSimple plan) s t := by
  obtain ⟨k, p, hp, h⟩ := running_pointOf h
  have hprimed (hr : s.Ramps (.rampSimple plan)) {u : State} (hu : Prepares (.rampSimple plan) s u)
      (regs : RampRegs) (h : simplePrimed plan k regs u = .next t) : Takes (.rampSimple plan) s t := by
    have hstepping : Prepares (.rampSimple plan) s (u.primed .steppingWithoutCapture) :=
      hu.writeRamp hr rfl (.inl rfl)
    exact stepBoundary_takes hp hstepping (fun _ => trivial) trivial hr h
  have hbusy (hstart : p ≠ .start) : s.Ramps (.rampSimple plan) :=
    fun _ => not_isIdle_of_pointOf hp hstart
  cases p with
  | start =>
    dsimp only at h
    split at h
    · cases h
      exact .completes .refl
    · next dv hdv =>
      have hr : s.Ramps (.rampSimple plan) := fun h0 => absurd h0 (stepCount_ne_zero hdv)
      have hu : Prepares (.rampSimple plan) s s.beginRamp := .writeRamp hr .refl rfl (.inl rfl)
      exact primeFrom_takes hp hu (fun _ => trivial) (hprimed hr hu) h
  | primeWrote | primeLowered | primeNext =>
    exact resumePrime_takes hp .refl (fun _ => trivial) trivial (hprimed (hbusy nofun) .refl) h
  | slept => exact stepBoundary_takes hp .refl (fun _ => trivial) trivial (hbusy nofun) h
  | _ => exact resumeStep_takes hp .refl (fun _ => trivial) trivial (hbusy nofun) h

theorem endRampPass_takes {plan : Plan} {k : Nat} {p : Point} {pass : Pass} {s u t : State}
    (hp : s.pointOf (.rampBuffered plan) = some (k, p)) (hr : s.Ramps (.rampBuffered plan))
    (hu : Prepares (.rampBuffered plan) s u) (h : endRampPass (.rampBuffered plan) plan k pass u = .next t) :
    Takes (.rampBuffered plan) s t := by
  cases pass with
  | reading => cases h
  | ramp regs n =>
    have hcount := countPass_prepares n hr hu
    dsimp only [endRampPass] at h
    split at h
    · cases h
      exact endRamp_takes hcount hr
    · exact stepBoundary_takes hp hcount (fun _ => trivial) trivial hr h

theorem execRampBuffered_takes {plan : Plan} {s t : State} (h : execRampBuffered plan s = .next t) :
    Takes (.rampBuffered plan) s t := by
  obtain ⟨k, p, hp, h⟩ := running_pointOf h
  have hprimed (hr : s.Ramps (.rampBuffered plan)) {u : State} (hu : Prepares (.rampBuffered plan) s u)
      (regs : RampRegs) (h : bufferedPrimed plan k regs u = .next t) : Takes (.rampBuffered plan) s t := by
    have hstepping : Prepares (.rampBuffered plan) s (u.primed .steppingWithCapture) :=
      hu.writeRamp hr rfl (.inl rfl)
    exact startPass_takes hp hstepping trivial h
  have hbusy (hstart : p ≠ .start) : s.Ramps (.rampBuffered plan) :=
    fun _ => not_isIdle_of_pointOf hp hstart
  cases p with
  | start =>
    dsimp only at h
    split at h
    · cases h
      exact .completes .refl
    · next dv hdv =>
      have hr : s.Ramps (.rampBuffered plan) := fun h0 => absurd h0 (stepCount_ne_zero hdv)
      have hu : Prepares (.rampBuffered plan) s s.beginRamp := .writeRamp hr .refl rfl (.inl rfl)
      exact primeFrom_takes hp hu (fun _ => trivial) (hprimed hr hu) h
  | primeWrote | primeLowered | primeNext =>
    exact resumePrime_takes hp .refl (fun _ => trivial) trivial (hprimed (hbusy nofun) .refl) h
  | stepNext | stepLowered | stepRaised =>
    exact resumeStep_takes hp .refl (fun _ => trivial) trivial (hbusy nofun) h
  | slept => exact startPass_takes hp .refl trivial h
  | _ =>
    have hr := hbusy nofun
    refine resumePass_takes hp .refl (fun _ => trivial) (fun pass u => endRampPass_takes hp hr) ?_ h
    intro pass u hu h
    cases pass <;> cases h
    exact endRamp_takes hu hr

/-- Every step of every instruction is of this form (00 R15, 10 R21). -/
theorem exec_takes {i : Instr} {s t : State} (h : exec i s = .next t) : Takes i s t := by
  unfold exec at h
  cases i with
  | buildFrame size count data =>
    dsimp only [execBuildFrame] at h
    split at h
    · split at h <;> exact completing_takes h
    · cases h
  | adcCfgEncode | adcCfgDecode | adcDisableAllEncode | dacC2v | dacWriteEncode | dacReadDecode | adcCodeDecode
  | readStatus => exact completing_takes h
  | dacV2c v =>
    dsimp only [execDacV2c] at h
    split at h <;> exact completing_takes h
  | rampPlan plan =>
    dsimp only [execRampPlan] at h
    split at h <;> exact completing_takes h
  | adcConfigureChannel => exact execAdcConfigureChannel_takes h
  | adcDisableAll =>
    obtain ⟨k, p, hp, h⟩ := running_pointOf h
    cases p with
    | start => cases h; exact .rests hp .refl (.enable _ _ fun _ => .inl trivial) rfl
    | finish => cases h; exact .completes .refl
    | _ => cases h
  | adcSelectMode =>
    obtain ⟨k, p, hp, h⟩ := running_pointOf h
    cases p with
    | start => cases h; exact .sendsMode hp .refl trivial
    | finish => cases h; exact .completes .refl
    | _ => cases h
  | adcWaitDrdy =>
    obtain ⟨k, p, hp, h⟩ := running_pointOf h
    cases p with
    | start => exact pollStep_takes hp (.writeAdcState _ trivial .refl) h
    | polling => exact pollStep_takes hp .refl h
    | waitTimedOut => cases h; exact .completes (.writeAdcState _ trivial .refl)
    | finish => cases h; exact .completes .refl
    | _ => cases h
  | adcReadChannel channel =>
    obtain ⟨k, p, hp, h⟩ := running_pointOf h
    cases p with
    | start => cases h; exact .rests hp .refl (.readChannel channel rfl) rfl
    | captured => cases h; exact .completes (.writeAdcState _ trivial .refl)
    | _ => cases h
  | adcFullReading => exact execAdcFullReading_takes h
  | dacInitAll =>
    obtain ⟨k, p, hp, h⟩ := running_pointOf h
    cases p with
    | start | initNext =>
      obtain ⟨_, rfl⟩ | ⟨_, _, _, rfl⟩ := initNext_next h
      · exact .completes .refl
      · exact .rests hp .refl (.transfer _ _) rfl
    | _ => cases h
  | dacSetVoltage => exact execDacSetVoltage_takes h
  | dacReadVoltage | dacReadRegister =>
    obtain ⟨k, p, hp, h⟩ := running_pointOf h
    exact readDac_takes hp .refl rfl h
  | dacUpdateOutputs =>
    obtain ⟨k, p, hp, h⟩ := running_pointOf h
    cases p with
    | start => cases h; exact .rests hp .refl (.setLatch .low trivial) rfl
    | pulseLow => cases h; exact .rests hp .refl (.setLatch .high trivial) rfl
    | finish => cases h; exact .completes .refl
    | _ => cases h
  | rampPrime => exact execRampPrime_takes h
  | rampSimple => exact execRampSimple_takes h
  | rampBuffered => exact execRampBuffered_takes h
  | wireAdcChcfg | wireAdcDisableAll | wireAdcMode | wireAdcDataRead | wireDacWrite | wireDacReadRequest
  | wireDacReadNull | wireDacInit => exact .sends h
  | wirePoison =>
    dsimp only [execWirePoison] at h
    split at h <;> cases h
    exact .stays ‹_›

end Sys2Proof.Machine
end

section
/-!
Scope. Who may write which field of the block's state (10 R21 to R32), from the form every step has (`exec_takes`).
-/

namespace Sys2Proof.Machine

/-! ### What the writes before the event leave -/

section Prepares

variable {i : Instr} {s u : State} (h : Prepares i s u)

include h

theorem Prepares.enabled : u.enabled = s.enabled := by rw [h.same]
theorem Prepares.adcCode : u.adcCode = s.adcCode := by rw [h.same]
theorem Prepares.adcVoltage : u.adcVoltage = s.adcVoltage := by rw [h.same]
theorem Prepares.dac : u.dac = s.dac := by rw [h.same]
theorem Prepares.lastErr : u.lastErr = s.lastErr := by rw [h.same]
theorem Prepares.latchLevel : u.latchLevel = s.latchLevel := by rw [h.same]
theorem Prepares.cfg : u.cfg = s.cfg := by rw [h.same]
theorem Prepares.log : u.log = s.log := by rw [h.same]
theorem Prepares.hostQueue : u.hostQueue = s.hostQueue := by rw [h.same]
theorem Prepares.signals : u.signals = s.signals := by rw [h.same]
theorem Prepares.chips : u.chips = s.chips := by rw [h.same]

end Prepares

/-! ### What the event writes -/

section Acts

variable {i : Instr} {u v : State} {e : Event} (h : Acts i u e v)

include h

theorem Acts.log : v.log = e :: u.log := by cases h <;> rfl
theorem Acts.chips : v.chips = u.chips.observe u.cfg e := by cases h <;> rfl
theorem Acts.cfg : v.cfg = u.cfg := by cases h <;> rfl
theorem Acts.hostQueue : v.hostQueue = u.hostQueue := by cases h <;> rfl
theorem Acts.signals : v.signals = u.signals := by cases h <;> rfl
theorem Acts.rampState : v.rampState = u.rampState := by cases h <;> rfl
theorem Acts.rampStepsDone : v.rampStepsDone = u.rampStepsDone := by cases h <;> rfl
theorem Acts.rampCancelled : v.rampCancelled = u.rampCancelled := by cases h <;> rfl
theorem Acts.rampPasses : v.rampPasses = u.rampPasses := by cases h <;> rfl
theorem Acts.cancelReq : v.cancelReq = u.cancelReq := by cases h <;> rfl

/-- 10 R27: a `Complete` writes `LAST_ERR`, no other event does. -/
theorem Acts.lastErr :
    (∃ err value, e = .complete err value ∧ v.lastErr = err.code) ∨ (e.isComplete = false ∧ v.lastErr = u.lastErr) := by
  cases h with
  | complete err value => exact .inl ⟨err, value, rfl, rfl⟩
  | _ => exact .inr ⟨rfl, rfl⟩

/-- 10 R32: `latchLevel` is the level of the last `SetLevel(LATCH_PIN, ·)`. -/
theorem Acts.latchLevel :
    (∃ lvl, e = .setLevel .latch lvl ∧ v.latchLevel = some lvl ∧ i.Pulses) ∨
    ((∀ lvl, e ≠ .setLevel .latch lvl) ∧ v.latchLevel = u.latchLevel) := by
  cases h with
  | setLatch lvl hi => exact .inl ⟨lvl, rfl, rfl, hi⟩
  | _ => exact .inr ⟨nofun, rfl⟩

theorem Acts.enabled (c : AdcChan) : i.WritesEnabled c ∨ v.enabled[c] = u.enabled[c] := by
  cases h with
  | enable bytes enabled hi => exact hi c
  | _ => exact .inr rfl

/-- 10 R25, 44 R199: of the events only a channel read writes `adcState`; the other writes of it have no event. -/
theorem Acts.adcState : i.WritesAdcState ∨ v.adcState = u.adcState := by
  cases h with
  | readChannel c hi => exact .inl hi.writesAdcState
  | _ => exact .inr rfl

/-- 10 R24, 44 R195: a channel's code and voltage are filed together. -/
theorem Acts.adcResult (c : AdcChan) :
    (v.adcCode[c] = u.adcCode[c] ∧ v.adcVoltage[c] = u.adcVoltage[c]) ∨
    (i.FilesResult c ∧ ∃ code, v.adcCode[c] = some code ∧ v.adcVoltage[c] = some (adcCodeToVoltage code)) := by
  cases h with
  | readChannel d hi =>
    by_cases hd : d = c
    · subst hd
      exact .inr ⟨hi, u.nextAdcCode, by simp, by simp⟩
    · have hne : d.val ≠ c.val := Fin.val_ne_of_ne hd
      exact .inl ⟨by simp [hne], by simp [hne]⟩
  | _ => exact .inl ⟨rfl, rfl⟩

/-- 10 R26: a write of channel `c` writes its `lastCode`, a readback its two readback fields, and no other event its
record. -/
theorem Acts.dacChannel (c : DacChan) :
    v.dac[c] = u.dac[c] ∨
    (i.WritesCode c ∧ ∃ code, v.dac[c] = { u.dac[c] with lastCode := some code }) ∨
    (i.ReadsBack c ∧ ∃ code, v.dac[c] =
      { u.dac[c] with lastReadCode := some code, lastReadVoltage := some (codeToVoltage code) }) := by
  cases h with
  | writeDac d code hi =>
    by_cases hd : d = c
    · subst hd
      exact .inr (.inl ⟨hi, code, by simp⟩)
    · exact .inl (by simp [Fin.val_ne_of_ne hd])
  | readDacBack d hi =>
    by_cases hd : d = c
    · subst hd
      exact .inr (.inr ⟨hi, u.nextDacCode, by simp⟩)
    · exact .inl (by simp [Fin.val_ne_of_ne hd])
  | _ => exact .inl rfl

end Acts

/-! ### What a step of an instruction writes -/

/-- From `s` to `t` at most one event happens, which the chips see; `LAST_ERR` is written by a `Complete` only, which
leaves the block idle (00 R15, 10 R27, 20 R61). -/
def MakesOneEvent (s t : State) : Prop :=
  (t.log = s.log ∧ t.lastErr = s.lastErr ∧ t.chips = s.chips) ∨
  ∃ e, t.log = e :: s.log ∧ t.chips = s.chips.observe s.cfg e ∧
    ((∃ err v, e = .complete err v ∧ t.lastErr = err.code ∧ t.seqpos = .idle) ∨
     (e.isComplete = false ∧ t.lastErr = s.lastErr))

section Takes

variable {i : Instr} {s t : State} (h : Takes i s t)

include h

theorem Takes.cfg : t.cfg = s.cfg := by
  cases h with
  | stays => rfl
  | does hu hv => exact hv.cfg.trans hu.cfg

theorem Takes.hostQueue : t.hostQueue = s.hostQueue := by
  cases h with
  | stays => rfl
  | does hu hv => exact hv.hostQueue.trans hu.hostQueue

theorem Takes.signals : t.signals = s.signals := by
  cases h with
  | stays => rfl
  | does hu hv => exact hv.signals.trans hu.signals

theorem Takes.makesOneEvent : MakesOneEvent s t := by
  cases h with
  | stays => exact .inl ⟨rfl, rfl, rfl⟩
  | @does u v e q hu hv hq =>
    refine .inr ⟨e, hu.log ▸ hv.log, hu.cfg ▸ hu.chips ▸ hv.chips, ?_⟩
    obtain ⟨err, value, rfl, herr⟩ | ⟨he, herr⟩ := hv.lastErr
    · cases hq with
      | completed => exact .inl ⟨err, value, rfl, herr, rfl⟩
      | rests he | sent he => cases he
    · exact .inr ⟨he, herr.trans hu.lastErr⟩

/-- The position after a step (10 R21). -/
theorem Takes.seqpos :
    t.seqpos = .idle ∨ ∃ k p q, s.pointOf i = some (k, p) ∧ t.seqpos = .busy i (k + 1) q := by
  cases h with
  | stays hs => exact .inl hs
  | does hu hv hq =>
    cases hq with
    | completed | sent => exact .inl rfl
    | rests he hp q => exact .inr ⟨_, _, q, hp, rfl⟩

theorem Takes.latchLevel :
    (t.latchLevel = s.latchLevel ∧ ∀ lvl, t.log ≠ .setLevel .latch lvl :: s.log) ∨
    (i.Pulses ∧ ∃ lvl, t.log = .setLevel .latch lvl :: s.log ∧ t.latchLevel = some lvl) := by
  cases h with
  | stays => exact .inl ⟨rfl, by simp⟩
  | does hu hv =>
    obtain ⟨lvl, rfl, hlevel, hi⟩ | ⟨hne, hlevel⟩ := hv.latchLevel
    · exact .inr ⟨hi, lvl, hu.log ▸ hv.log, hlevel⟩
    · exact .inl ⟨hlevel.trans hu.latchLevel, by simpa [hv.log, hu.log] using hne⟩

theorem Takes.enabled (c : AdcChan) : i.WritesEnabled c ∨ t.enabled[c] = s.enabled[c] := by
  cases h with
  | stays => exact .inr rfl
  | does hu hv => exact hu.enabled ▸ hv.enabled c

theorem Takes.adcState : i.WritesAdcState ∨ t.adcState = s.adcState := by
  cases h with
  | stays => exact .inr rfl
  | does hu hv =>
    obtain hi | hu := hu.adcState
    · exact .inl hi
    · exact hu ▸ hv.adcState

theorem Takes.adcResult (c : AdcChan) :
    (t.adcCode[c] = s.adcCode[c] ∧ t.adcVoltage[c] = s.adcVoltage[c]) ∨
    (i.FilesResult c ∧ ∃ code, t.adcCode[c] = some code ∧ t.adcVoltage[c] = some (adcCodeToVoltage code)) := by
  cases h with
  | stays => exact .inl ⟨rfl, rfl⟩
  | does hu hv => exact hu.adcCode ▸ hu.adcVoltage ▸ hv.adcResult c

theorem Takes.dacChannel (c : DacChan) :
    t.dac[c] = s.dac[c] ∨
    (i.WritesCode c ∧ ∃ code, t.dac[c] = { s.dac[c] with lastCode := some code }) ∨
    (i.ReadsBack c ∧ ∃ code, t.dac[c] =
      { s.dac[c] with lastReadCode := some code, lastReadVoltage := some (codeToVoltage code) }) := by
  cases h with
  | stays => exact .inl rfl
  | does hu hv => exact hu.dac ▸ hv.dacChannel c

/-- The constants of a DAC record are never written (10 R26). -/
theorem Takes.dacConstants (c : DacChan) :
    t.dac[c].syncLine = s.dac[c].syncLine ∧ t.dac[c].ge = s.dac[c].ge ∧ t.dac[c].os = s.dac[c].os := by
  obtain hd | ⟨_, _, hd⟩ | ⟨_, _, hd⟩ := h.dacChannel c <;> rw [hd] <;> exact ⟨rfl, rfl, rfl⟩

/-- No step sets `cancelReq`: only the host does (10 R30). -/
theorem Takes.cancelReq : t.cancelReq = s.cancelReq ∨ t.cancelReq = false := by
  cases h with
  | stays => exact .inl rfl
  | does hu hv => exact hv.cancelReq ▸ hu.cancelReq

theorem Takes.ramp :
    s.Ramps i ∨ (t.rampState = s.rampState ∧ t.rampStepsDone = s.rampStepsDone ∧
      t.rampCancelled = s.rampCancelled ∧ t.rampPasses = s.rampPasses ∧ t.cancelReq = s.cancelReq) := by
  cases h with
  | stays => exact .inr ⟨rfl, rfl, rfl, rfl, rfl⟩
  | does hu hv =>
    exact hv.rampState ▸ hv.rampStepsDone ▸ hv.rampCancelled ▸ hv.rampPasses ▸ hv.cancelReq ▸ hu.ramp

end Takes

/-! ### The instructions named in the statements -/

theorem not_writesCode {i : Instr} {c : DacChan} (hset : ∀ v u, i ≠ .dacSetVoltage c v u)
    (hprime : ∀ m v, i ≠ .rampPrime m v) (hsimple : ∀ p, i ≠ .rampSimple p) (hbuffered : ∀ p, i ≠ .rampBuffered p) :
    ¬i.WritesCode c := by
  intro h
  cases i with
  | dacSetVoltage d v u => exact hset v u (by rw [show d = c from h])
  | rampPrime m v => exact hprime m v rfl
  | rampSimple p => exact hsimple p rfl
  | rampBuffered p => exact hbuffered p rfl
  | _ => exact h

theorem not_readsBack {i : Instr} {c : DacChan} (hvoltage : i ≠ .dacReadVoltage c) (hregister : i ≠ .dacReadRegister c) :
    ¬i.ReadsBack c := by
  intro h
  cases i with
  | dacReadVoltage d => exact hvoltage (by rw [show d = c from h])
  | dacReadRegister d => exact hregister (by rw [show d = c from h])
  | _ => exact h

theorem pulses_cases {i : Instr} (h : i.Pulses) :
    (∃ c v u, i = .dacSetVoltage c v u) ∨ i = .dacUpdateOutputs ∨ (∃ m v, i = .rampPrime m v) ∨
      (∃ p, i = .rampSimple p) ∨ ∃ p, i = .rampBuffered p := by
  cases i with
  | dacSetVoltage c v u => exact .inl ⟨c, v, u, rfl⟩
  | dacUpdateOutputs => exact .inr (.inl rfl)
  | rampPrime m v => exact .inr (.inr (.inl ⟨m, v, rfl⟩))
  | rampSimple p => exact .inr (.inr (.inr (.inl ⟨p, rfl⟩)))
  | rampBuffered p => exact .inr (.inr (.inr (.inr ⟨p, rfl⟩)))
  | _ => exact False.elim h

theorem not_writesEnabled {i : Instr} {c : AdcChan} (hconfigure : ∀ a b d e, i ≠ .adcConfigureChannel c a b d e)
    (hdisable : i ≠ .adcDisableAll) : ¬i.WritesEnabled c := by
  intro h
  cases i with
  | adcConfigureChannel x a b d e => exact hconfigure a b d e (by rw [show x = c from h])
  | adcDisableAll => exact hdisable rfl
  | _ => exact h

theorem not_filesResult {i : Instr} {c : AdcChan} (hread : i ≠ .adcReadChannel c) (hfull : i ≠ .adcFullReading)
    (hbuffered : ∀ p, i ≠ .rampBuffered p) : ¬i.FilesResult c := by
  intro h
  cases i with
  | adcReadChannel d => exact hread (by rw [show d = c from h])
  | adcFullReading => exact hfull rfl
  | rampBuffered p => exact hbuffered p rfl
  | _ => exact h

theorem not_writesAdcState {i : Instr} (hmode : i ≠ .adcSelectMode) (hwait : i ≠ .adcWaitDrdy)
    (hread : ∀ c, i ≠ .adcReadChannel c) (hfull : i ≠ .adcFullReading) (hbuffered : ∀ p, i ≠ .rampBuffered p) :
    ¬i.WritesAdcState := by
  intro h
  cases i with
  | adcSelectMode => exact hmode rfl
  | adcWaitDrdy => exact hwait rfl
  | adcReadChannel c => exact hread c rfl
  | adcFullReading => exact hfull rfl
  | rampBuffered p => exact hbuffered p rfl
  | _ => exact h

theorem not_ramps {i : Instr} {s : State}
    (hrejected : ∀ p, i = .rampSimple p ∨ i = .rampBuffered p → p.stepCount = 0 ∧ s.IsIdle) : ¬s.Ramps i := by
  intro h
  cases i with
  | rampSimple p => exact h (hrejected p (.inl rfl)).1 (hrejected p (.inl rfl)).2
  | rampBuffered p => exact h (hrejected p (.inr rfl)).1 (hrejected p (.inr rfl)).2
  | _ => exact h

/-! ### The statements -/

/-- Settles O52: of all events only a write and a readback of a channel touch its record. -/
theorem dacRecordFrame : Obligations.DacRecordFrame := by
  unfold Obligations.DacRecordFrame
  intro i s t c h
  have htakes := exec_takes h
  obtain ⟨hline, hge, hos⟩ := htakes.dacConstants c
  refine ⟨hline, hge, hos, fun hset hprime hsimple hbuffered => ?_, fun hvoltage hregister => ?_⟩
  · have hno := not_writesCode hset hprime hsimple hbuffered
    obtain hd | ⟨hi, _⟩ | ⟨_, _, hd⟩ := htakes.dacChannel c
    · rw [hd]
    · exact absurd hi hno
    · rw [hd]
  · have hno := not_readsBack hvoltage hregister
    obtain hd | ⟨_, _, hd⟩ | ⟨hi, _⟩ := htakes.dacChannel c
    · rw [hd]; exact ⟨rfl, rfl⟩
    · rw [hd]; exact ⟨rfl, rfl⟩
    · exact absurd hi hno

/-- Settles O53: of all events only `SetLevel(LATCH_PIN, ·)` writes the level. -/
theorem latchFrame : Obligations.LatchFrame := by
  unfold Obligations.LatchFrame
  intro i s t h
  obtain hkept | ⟨hi, hlevel⟩ := (exec_takes h).latchLevel
  · exact .inl hkept
  · exact .inr ⟨hlevel, pulses_cases hi⟩

/-- Settles O54: the enables, the results and `adcState` are each written by an event or a preparation that names its
instructions. -/
theorem adcRecordFrame : Obligations.AdcRecordFrame := by
  unfold Obligations.AdcRecordFrame
  intro i s t h
  have htakes := exec_takes h
  refine ⟨fun c hconfigure hdisable => ?_, fun c hread hfull hbuffered => ?_,
    fun hmode hwait hread hfull hbuffered => ?_⟩
  · exact (htakes.enabled c).resolve_left (not_writesEnabled hconfigure hdisable)
  · exact (htakes.adcResult c).resolve_right fun ⟨hi, _⟩ => not_filesResult hread hfull hbuffered hi
  · exact htakes.adcState.resolve_left (not_writesAdcState hmode hwait hread hfull hbuffered)

/-- Settles O55: no event writes the ramp fields, and only an accepted ramp writes them beside its event. -/
theorem rampAndHostFrame : Obligations.RampAndHostFrame := by
  unfold Obligations.RampAndHostFrame
  intro i s t h
  have htakes := exec_takes h
  exact ⟨htakes.cfg, htakes.hostQueue, htakes.signals, fun hrejected => htakes.ramp.resolve_left (not_ramps hrejected)⟩

/-- Settles O9: a step that does not complete counts its event, from 0 at the start. -/
theorem sequencerCountsEvents : Obligations.SequencerCountsEvents := by
  unfold Obligations.SequencerCountsEvents
  intro i s t h
  obtain hidle | ⟨k, p, q, hp, hbusy⟩ := (exec_takes h).seqpos
  · exact .inl hidle
  · obtain ⟨hs, rfl, rfl⟩ | hs := pointOf_cases hp
    · exact .inr (.inl ⟨hs, q, hbusy⟩)
    · exact .inr (.inr ⟨k, p, q, hs, hbusy⟩)

/-! ### LAST_ERR over steps -/

/-- The events of the reset sequence are no `Complete` (70 R290, R292). -/
theorem resetEvent_makesOneEvent (n : Nat) (s : State) : MakesOneEvent s (s.resetEvent n) := by
  match n with
  | 0 | 1 | _ + 2 => exact .inr ⟨_, rfl, rfl, .inr ⟨rfl, rfl⟩⟩

theorem stepNow_makesOneEvent {s t : State} (h : stepNow s = .next t) : MakesOneEvent s t := by
  cases hs : s.seqpos with
  | busy i k p => exact (exec_takes (stepNow_busy hs ▸ h)).makesOneEvent
  | resetting n =>
    rw [stepNow_resetting hs] at h
    cases h
    exact resetEvent_makesOneEvent n s
  | idle =>
    cases hh : s.hostQueue with
    | nil =>
      rw [stepNow_wait hs hh] at h
      cases h
      exact .inl ⟨rfl, rfl, rfl⟩
    | cons d rest =>
      cases hd : decode s.cfg d with
      | instr i =>
        have htakes : Takes i { s with hostQueue := rest } t := exec_takes (stepNow_issue hs hh hd ▸ h)
        exact htakes.makesOneEvent
      | illegalOpcode o =>
        rw [stepNow_illegal hs hh hd] at h
        cases h
        exact .inr ⟨_, rfl, rfl, .inl ⟨_, _, rfl, rfl, rfl⟩⟩
      | unknownFrame =>
        rw [stepNow_unknownFrame hs hh hd] at h
        cases h

/-- A signal that is no reset touches `signals` and `cancelReq` only (10 R30). -/
theorem takeSignal_of_noReset {s : State} (h : s.NoReset) :
    s.takeSignal = { s with signals := s.takeSignal.signals, cancelReq := s.takeSignal.cancelReq } := by
  unfold State.takeSignal
  split
  · rfl
  · rfl
  · unfold State.writeCancel
    split <;> rfl
  · next hs => exact absurd (by rw [hs]; rfl) h

/-- Settles O8: the host's signal is no event, and after it every branch of a step makes at most one. -/
theorem lastErrIsWrittenByCompleteOnly : Obligations.LastErrIsWrittenByCompleteOnly := by
  unfold Obligations.LastErrIsWrittenByCompleteOnly
  intro s t hno h
  have hevent := stepNow_makesOneEvent (s := s.takeSignal) h
  rw [takeSignal_of_noReset hno] at hevent
  exact hevent

end Sys2Proof.Machine
end

section
/-!
Scope. The invariant: reset has it, and every step keeps it. The position is followed through each operation's points;
the other parts are read off `exec_takes`.
-/

namespace Sys2Proof.Machine

/-! ### What the position says of the state, with the position taken out -/

/-- The ramp is idle or complete (10 R28). -/
def RampState.AtRest (r : RampState) : Prop := r = .idle ∨ r = .complete

/-- No latch pulse is begun and no ADC result is half filed, with a condition on `rampState`. -/
def State.Calm (ramp : RampState → Prop) (s : State) : Prop :=
  s.latchLevel = some .high ∧ ramp s.rampState ∧ s.adcState ≠ .dataCaptured

/-- The state fits operation `i` resting at `p`. -/
def State.Fits (s : State) (i : Instr) (p : Point) : Prop :=
  RestsAt i p ∧ s.latchLevel = some p.latch ∧ p.AdcStateOk s.adcState ∧ RampStateOk i p s.rampState

theorem positionOk_idle {s : State} (hs : s.seqpos = .idle) : s.PositionOk ↔ s.Calm RampState.AtRest := by
  rw [State.PositionOk, hs]
  rfl

theorem positionOk_busy {s : State} {i : Instr} {k : Nat} {p : Point} (hs : s.seqpos = .busy i k p) :
    s.PositionOk ↔ 1 ≤ k ∧ s.Fits i p := by
  rw [State.PositionOk, hs]
  rfl

theorem positionOk_complete {s : State} {err : Err} {value : Value} (h : s.Calm RampState.AtRest) :
    (s.complete err value).PositionOk := h

theorem positionOk_pause {s : State} {i : Instr} {k : Nat} {p : Point} (h : s.Fits i p) :
    (s.pause i (k + 1) p).PositionOk := ⟨Nat.succ_pos k, h⟩

/-- No operation rests at its start (10 R21). -/
theorem not_restsAt_start (i : Instr) : ¬RestsAt i .start := by
  cases i <;> simp [RestsAt, Point.InPriming, Point.InStep, Point.InPass]

/-- An operation that answers a next state started on a calm block, or rested at a point the state fits. -/
theorem running_cases {i : Instr} {s t : State} {body : Nat → Point → State → Outcome} (hs : s.PositionOk)
    (h : running i s body = .next t) :
    (s.Calm RampState.AtRest ∧ body 0 .start s = .next t) ∨ ∃ k p, s.Fits i p ∧ body k p s = .next t := by
  obtain ⟨hidle, h⟩ | ⟨k, p, hbusy, h⟩ := running_next h
  · exact .inl ⟨(positionOk_idle hidle).mp hs, h⟩
  · exact .inr ⟨k, p, ((positionOk_busy hbusy).mp hs).2, h⟩

theorem completing_positionOk {i : Instr} {err : Err} {value : Value} {s t : State} (hs : s.PositionOk)
    (h : completing i err value s = .next t) : t.PositionOk := by
  obtain ⟨hcalm, h⟩ | ⟨k, p, hfits, h⟩ := running_cases hs h
  · cases h
    exact positionOk_complete hcalm
  · cases p <;> cases h
    obtain ⟨hrests, _⟩ := hfits
    exact absurd hrests (not_restsAt_start i)

theorem sendFrame_positionOk {line : Line} {bytes : List Byte} {s t : State} (hs : s.PositionOk)
    (h : sendFrame line bytes s = .next t) : t.PositionOk := by
  obtain ⟨_, rfl⟩ := sendFrame_next h
  exact hs

/-! ### The shared parts of operations -/

/-- The points of a part that several operations share are points of `i`, at which `rampState` is as `ramp` says. -/
def Hosts (i : Instr) (points : Point → Prop) (ramp : RampState → Prop) : Prop :=
  ∀ p r, points p → ramp r → RestsAt i p ∧ RampStateOk i p r

section Shared

variable {i : Instr} {points : Point → Prop} {ramp : RampState → Prop} {u t : State} {k : Nat} {p : Point}

theorem Hosts.fits (hi : Hosts i points ramp) (hp : points p) (hlatch : u.latchLevel = some p.latch)
    (hadc : p.AdcStateOk u.adcState) (hramp : ramp u.rampState) : u.Fits i p :=
  ⟨(hi p _ hp hramp).1, hlatch, hadc, (hi p _ hp hramp).2⟩

theorem pollStep_positionOk {polls : Nat} {ready expired again : Point}
    (h : pollStep i k polls ready expired again u = .next t) (hready : u.Fits i ready)
    (hexpired : u.Fits i expired) (hagain : u.Fits i again) : t.PositionOk := by
  obtain ⟨q, hq, heq⟩ := pollStep_next i k polls ready expired again u
  cases heq.symm.trans h
  obtain rfl | rfl | rfl := hq
  · exact positionOk_pause hready
  · exact positionOk_pause hexpired
  · exact positionOk_pause hagain

theorem readDac_positionOk {c : DacChan} {result : DacCode → Value} (hi : Hosts i
    (fun p => p = .readRequested ∨ ∃ code, p = .finish .none (result code)) RampState.AtRest)
    (h : readDac i c result k p u = .next t) (hcalm : u.Calm RampState.AtRest) : t.PositionOk := by
  obtain ⟨hlatch, hramp, hadc⟩ := hcalm
  obtain ⟨_, rfl⟩ | ⟨_, rfl⟩ | ⟨_, _, _, rfl⟩ := readDac_next h
  · exact positionOk_pause (hi.fits (.inl rfl) hlatch hadc hramp)
  · exact positionOk_pause (hi.fits (.inr ⟨_, rfl⟩) hlatch hadc hramp)
  · exact positionOk_complete ⟨hlatch, hramp, hadc⟩

/-! Priming (46 R232). -/

section Priming

variable {ok : RampRegs → Prop} {vInitial : Vector Volts 4} {primed : RampRegs → State → Outcome} {regs : RampRegs}
  {todo : List DacChan} (hi : Hosts i (Point.InPriming ok) ramp)
  (hok : ∀ regs : RampRegs, ok regs → ok { regs with rampErr := .voltageOverrange })
  (hprimed : ∀ regs, ok regs → u.Calm ramp → primed regs u = .next t → t.PositionOk)

include hi hok hprimed

theorem primeFrom_positionOk (h : primeFrom i vInitial primed k regs todo u = .next t) (hregs : ok regs)
    (hcalm : u.Calm ramp) : t.PositionOk := by
  obtain ⟨err, herr, hnext⟩ := primeFrom_next h
  have hregs' : ok { regs with rampErr := err } := by
    obtain rfl | ⟨_, rfl⟩ := herr
    · exact hregs
    · exact hok regs hregs
  obtain hnext | ⟨_, _, rfl⟩ := hnext
  · exact hprimed _ hregs' hcalm hnext
  · obtain ⟨hlatch, hramp, hadc⟩ := hcalm
    exact positionOk_pause (hi.fits hregs' hlatch hadc hramp)

theorem resumePrime_positionOk (h : resumePrime i vInitial primed k p u = .next t) (hp : p.InPriming ok)
    (hlatch : u.latchLevel = some p.latch) (hadc : p.AdcStateOk u.adcState) (hramp : ramp u.rampState) :
    t.PositionOk := by
  obtain ⟨_, _, rfl, rfl⟩ | ⟨_, _, rfl, rfl⟩ | ⟨_, _, rfl, hnext⟩ := resumePrime_next h
  · exact positionOk_pause (hi.fits hp rfl hadc hramp)
  · exact positionOk_pause (hi.fits hp rfl hadc hramp)
  · exact primeFrom_positionOk hi hok hprimed hnext hp ⟨hlatch, hramp, hadc⟩

end Priming

/-! Steps and the end of a ramp (46 R234 to R237). -/

theorem endRamp_positionOk {err : Err} {cancelled : Bool} {passes : BitVec 32} (hcalm : u.Calm ramp) :
    (u.endRamp err cancelled passes).PositionOk := by
  obtain ⟨hlatch, _, hadc⟩ := hcalm
  exact ⟨hlatch, .inr rfl, hadc⟩

theorem fits_voltageOverrange {plan : Plan} {regs : RampRegs} (h : regs.Fits plan) :
    RampRegs.Fits plan { regs with rampErr := .voltageOverrange } := ⟨h.1, .inr rfl⟩

section Steps

variable {plan : Plan} {regs : RampRegs} (hi : Hosts i (Point.InStep (RampRegs.Fits plan)) ramp)

include hi

theorem stepFrom_positionOk {todo : List DacChan} (h : stepFrom i plan k regs todo u = .next t)
    (hregs : regs.Fits plan) (hcalm : u.Calm ramp) : t.PositionOk := by
  obtain ⟨hlatch, hramp, hadc⟩ := hcalm
  obtain ⟨err, herr, heq⟩ := stepFrom_next i plan k regs todo u
  have hregs' : RampRegs.Fits plan { regs with rampErr := err } := by
    obtain rfl | ⟨_, rfl⟩ := herr
    · exact hregs
    · exact fits_voltageOverrange hregs
  obtain heq | ⟨_, _, heq⟩ := heq <;> cases heq.symm.trans h
  · exact positionOk_pause (hi.fits hregs' rfl hadc hramp)
  · exact positionOk_pause (hi.fits hregs' hlatch hadc hramp)

theorem stepBoundary_positionOk {passes : BitVec 32} (h : stepBoundary i plan passes k regs u = .next t)
    (hregs : regs.Fits plan) (hcalm : u.Calm ramp) : t.PositionOk := by
  obtain ⟨_, heq⟩ | ⟨_, _, heq⟩ | ⟨_, _, heq⟩ := stepBoundary_cases i plan passes k regs u
  · cases heq.symm.trans h
    exact endRamp_positionOk hcalm
  · cases heq.symm.trans h
    exact endRamp_positionOk (u := { u with rampCancelled := true }) hcalm
  · exact stepFrom_positionOk hi (heq.symm.trans h) hregs hcalm

theorem resumeStep_positionOk (h : resumeStep i plan k p u = .next t) (hp : p.InStep (RampRegs.Fits plan))
    (hlatch : u.latchLevel = some p.latch) (hadc : p.AdcStateOk u.adcState) (hramp : ramp u.rampState) :
    t.PositionOk := by
  obtain ⟨_, _, rfl, hnext⟩ | ⟨_, rfl, rfl⟩ | ⟨_, rfl, rfl⟩ := resumeStep_next h
  · exact stepFrom_positionOk hi hnext hp ⟨hlatch, hramp, hadc⟩
  · exact positionOk_pause (hi.fits hp rfl hadc hramp)
  · exact positionOk_pause (hi.fits hp hlatch hadc hramp)

end Steps

/-! Full readings (44 R197). -/

/-- A pass rests after its mode frame; the latch stays high. -/
theorem startPass_positionOk {ok : Pass → Prop} {pass : Pass} {todo : List AdcChan}
    (hi : Hosts i (Point.InPass ok) ramp) (h : startPass i k pass todo u = .next t) (hpass : ok pass)
    (hcalm : u.Calm ramp) : t.PositionOk := by
  cases h
  obtain ⟨hlatch, hramp, _⟩ := hcalm
  exact positionOk_pause (hi.fits hpass hlatch (.inl rfl) hramp)

theorem resumePass_positionOk {ok : Pass → Prop} {atEnd onTimeout : Pass → State → Outcome}
    (hi : Hosts i (Point.InPass ok) ramp) (h : resumePass i atEnd onTimeout k p u = .next t)
    (hreadings : ∀ rs rs', ok (.reading rs) → ok (.reading rs'))
    (hend : ∀ pass u, ok pass → u.Calm ramp → atEnd pass u = .next t → t.PositionOk)
    (htimeout : ∀ pass u, ok pass → u.Calm ramp → onTimeout pass u = .next t → t.PositionOk)
    (hp : p.InPass ok) (hlatch : u.latchLevel = some p.latch) (hadc : p.AdcStateOk u.adcState)
    (hramp : ramp u.rampState) : t.PositionOk := by
  have hidle (hlatch : u.latchLevel = some .high) : ({ u with adcState := .idle } : State).Calm ramp :=
    ⟨hlatch, hramp, nofun⟩
  obtain ⟨pass, rfl, hnext⟩ | ⟨pass, c, todo, rfl, hnext⟩ | ⟨pass, c, todo, _, rfl, hnext⟩ |
    ⟨pass, c, todo, rfl, rfl⟩ | ⟨regs, n, c, _, _, todo, rfl, rfl⟩ | ⟨pass, rfl, hnext⟩ := resumePass_next h
  · exact hend pass _ hp (hidle hlatch) hnext
  · exact pollStep_positionOk hnext (hi.fits hp hlatch rfl hramp) (hi.fits hp hlatch rfl hramp)
      (hi.fits hp hlatch rfl hramp)
  · exact pollStep_positionOk hnext (hi.fits hp hlatch hadc hramp) (hi.fits hp hlatch hadc hramp)
      (hi.fits hp hlatch hadc hramp)
  · refine positionOk_pause ?_
    cases pass with
    | reading rs => exact hi.fits (p := .passNext _ todo) (hreadings rs _ hp) hlatch (.inr rfl) hramp
    | ramp regs n => exact hi.fits (p := .passCaptured regs n c _ _ todo) ⟨hp, rfl⟩ hlatch rfl hramp
  · obtain ⟨hregs, _⟩ := hp
    exact positionOk_pause (hi.fits (p := .passNext (.ramp regs n) todo) hregs hlatch (.inr hadc) hramp)
  · exact htimeout pass _ hp (hidle hlatch) hnext

end Shared

/-! ### Operations -/

theorem execAdcConfigureChannel_positionOk {channel : AdcChan} {state setup p n : BitVec 32} {s t : State}
    (hs : s.PositionOk) (h : execAdcConfigureChannel channel state setup p n s = .next t) : t.PositionOk := by
  obtain ⟨⟨hlatch, hramp, hadc⟩, h⟩ | ⟨k, pt, ⟨⟨rfl, _⟩, hlatch, hadc, hramp⟩, h⟩ := running_cases hs h
  · dsimp only at h
    split at h <;> cases h
    · next hvalid => exact positionOk_pause ⟨⟨rfl, hvalid⟩, hlatch, hadc, hramp⟩
    · exact positionOk_complete ⟨hlatch, hramp, hadc⟩
  · cases h
    exact positionOk_complete ⟨hlatch, hramp, hadc⟩

theorem execAdcWaitDrdy_positionOk {s t : State} (hs : s.PositionOk) (h : execAdcWaitDrdy s = .next t) :
    t.PositionOk := by
  obtain ⟨⟨hlatch, hramp, _⟩, h⟩ | ⟨k, p, ⟨hrests, hlatch, hadc, hramp⟩, h⟩ := running_cases hs h
  · exact pollStep_positionOk h ⟨.inr (.inr rfl), hlatch, nofun, hramp⟩ ⟨.inr (.inl rfl), hlatch, rfl, hramp⟩
      ⟨.inl ⟨1, rfl⟩, hlatch, rfl, hramp⟩
  · obtain ⟨polls, rfl⟩ | rfl | rfl := hrests
    · have hawaits : s.adcState = .awaitingDataReady := hadc
      exact pollStep_positionOk h ⟨.inr (.inr rfl), hlatch, by simp [Point.AdcStateOk, hawaits], hramp⟩
        ⟨.inr (.inl rfl), hlatch, hadc, hramp⟩ ⟨.inl ⟨_, rfl⟩, hlatch, hadc, hramp⟩
    · cases h
      exact positionOk_complete ⟨hlatch, hramp, nofun⟩
    · cases h
      exact positionOk_complete ⟨hlatch, hramp, hadc⟩

theorem execAdcReadChannel_positionOk {channel : AdcChan} {s t : State} (hs : s.PositionOk)
    (h : execAdcReadChannel channel s = .next t) : t.PositionOk := by
  obtain ⟨⟨hlatch, hramp, _⟩, h⟩ | ⟨k, p, ⟨⟨code, rfl⟩, hlatch, _, hramp⟩, h⟩ := running_cases hs h
  · cases h
    exact positionOk_pause ⟨⟨_, rfl⟩, hlatch, rfl, hramp⟩
  · cases h
    exact positionOk_complete ⟨hlatch, hramp, nofun⟩

theorem fullReading_hosts : Hosts .adcFullReading (Point.InPass Pass.IsReading) RampState.AtRest :=
  fun _ _ hp hr => ⟨hp, hr⟩

theorem execAdcFullReading_positionOk {s t : State} (hs : s.PositionOk) (h : execAdcFullReading s = .next t) :
    t.PositionOk := by
  obtain ⟨hcalm, h⟩ | ⟨k, p, ⟨hp, hlatch, hadc, hramp⟩, h⟩ := running_cases hs h
  · exact startPass_positionOk fullReading_hosts h trivial hcalm
  · have hend (pass : Pass) (u : State) (_ : pass.IsReading) (hcalm : u.Calm RampState.AtRest)
        (h : finishReading pass u = .next t) : t.PositionOk := by
      cases pass <;> cases h
      exact positionOk_complete hcalm
    have htimeout (pass : Pass) (u : State) (_ : pass.IsReading) (hcalm : u.Calm RampState.AtRest)
        (h : abortReading pass u = .next t) : t.PositionOk := by
      cases pass <;> cases h
      exact positionOk_complete hcalm
    cases p with
    | start => exact False.elim hp
    | _ =>
      exact resumePass_positionOk fullReading_hosts h (fun _ _ => id) hend htimeout hp hlatch hadc hramp

theorem execDacInitAll_positionOk {s t : State} (hs : s.PositionOk) (h : execDacInitAll s = .next t) :
    t.PositionOk := by
  have hinit {k : Nat} {todo : List DacChan} (hcalm : s.Calm RampState.AtRest) (h : initNext k todo s = .next t) :
      t.PositionOk := by
    obtain ⟨hlatch, hramp, hadc⟩ := hcalm
    obtain ⟨_, rfl⟩ | ⟨_, rest, _, rfl⟩ := initNext_next h
    · exact positionOk_complete ⟨hlatch, hramp, hadc⟩
    · exact positionOk_pause ⟨⟨rest, rfl⟩, hlatch, hadc, hramp⟩
  obtain ⟨hcalm, h⟩ | ⟨k, p, ⟨⟨todo, rfl⟩, hlatch, hadc, hramp⟩, h⟩ := running_cases hs h
  · exact hinit hcalm h
  · exact hinit ⟨hlatch, hramp, hadc⟩ h

theorem execDacSetVoltage_positionOk {channel : DacChan} {v : Volts} {updateOutputs : Bool} {s t : State}
    (hs : s.PositionOk) (h : execDacSetVoltage channel v updateOutputs s = .next t) : t.PositionOk := by
  obtain ⟨⟨hlatch, hramp, hadc⟩, h⟩ | ⟨k, p, ⟨⟨code, hrests⟩, hlatch, hadc, hramp⟩, h⟩ := running_cases hs h
  · dsimp only at h
    split at h <;> cases h
    · exact positionOk_complete ⟨hlatch, hramp, hadc⟩
    · next code _ =>
      cases updateOutputs with
      | true => exact positionOk_pause ⟨⟨code, .inl ⟨rfl, .inl rfl⟩⟩, hlatch, hadc, hramp⟩
      | false => exact positionOk_pause ⟨⟨code, .inr rfl⟩, hlatch, hadc, hramp⟩
  · obtain ⟨hu, rfl | rfl⟩ | rfl := hrests <;> cases h
    · exact positionOk_pause ⟨⟨code, .inl ⟨hu, .inr rfl⟩⟩, rfl, hadc, hramp⟩
    · exact positionOk_pause ⟨⟨code, .inr rfl⟩, rfl, hadc, hramp⟩
    · exact positionOk_complete ⟨hlatch, hramp, hadc⟩

/-- A readback whose points are the request and the result made of its code (45 R215). -/
theorem readback_positionOk {i : Instr} {c : DacChan} {result : DacCode → Value} {s t : State}
    (hpoints : ∀ p, RestsAt i p ↔ p = .readRequested ∨ ∃ code, p = .finish .none (result code))
    (hramps : ∀ p r, RampStateOk i p r ↔ r.AtRest) (hs : s.PositionOk)
    (h : running i s (readDac i c result) = .next t) : t.PositionOk := by
  have hi : Hosts i (fun p => p = .readRequested ∨ ∃ code, p = .finish .none (result code)) RampState.AtRest :=
    fun p r hp hr => ⟨(hpoints p).mpr hp, (hramps p r).mpr hr⟩
  obtain ⟨hcalm, h⟩ | ⟨k, p, ⟨hrests, hlatch, hadc, hramp⟩, h⟩ := running_cases hs h
  · exact readDac_positionOk hi h hcalm
  · have hrest := (hramps p _).mp hramp
    obtain rfl | ⟨code, rfl⟩ := (hpoints p).mp hrests <;> exact readDac_positionOk hi h ⟨hlatch, hrest, hadc⟩

theorem execDacUpdateOutputs_positionOk {s t : State} (hs : s.PositionOk) (h : execDacUpdateOutputs s = .next t) :
    t.PositionOk := by
  obtain ⟨⟨_, hramp, hadc⟩, h⟩ | ⟨k, p, ⟨rfl | rfl, hlatch, hadc, hramp⟩, h⟩ := running_cases hs h <;> cases h
  · exact positionOk_pause ⟨.inl rfl, rfl, hadc, hramp⟩
  · exact positionOk_pause ⟨.inr rfl, rfl, hadc, hramp⟩
  · exact positionOk_complete ⟨hlatch, hramp, hadc⟩

theorem rampPrime_hosts (mask : BitVec 4) (vInitial : Vector Volts 4) :
    Hosts (.rampPrime mask vInitial) (Point.InPriming RampRegs.FitsPrime) RampState.AtRest :=
  fun _ _ hp hr => ⟨hp, hr⟩

theorem execRampPrime_positionOk {mask : BitVec 4} {vInitial : Vector Volts 4} {s t : State} (hs : s.PositionOk)
    (h : execRampPrime mask vInitial s = .next t) : t.PositionOk := by
  have hi := rampPrime_hosts mask vInitial
  have hok (regs : RampRegs) (_ : regs.FitsPrime) :
      RampRegs.FitsPrime { regs with rampErr := .voltageOverrange } := .inr rfl
  have hprimed (regs : RampRegs) (_ : regs.FitsPrime) (hcalm : s.Calm RampState.AtRest)
      (h : (.next (s.complete regs.rampErr .unit) : Outcome) = .next t) : t.PositionOk := by
    cases h
    exact positionOk_complete hcalm
  obtain ⟨hcalm, h⟩ | ⟨k, p, ⟨hp, hlatch, hadc, hramp⟩, h⟩ := running_cases hs h
  · exact primeFrom_positionOk hi hok hprimed h (.inl rfl) hcalm
  · cases p with
    | start => exact False.elim hp
    | _ => exact resumePrime_positionOk hi hok hprimed h hp hlatch hadc hramp

section Ramps

variable {plan : Plan} {s t u : State} {k : Nat}

theorem rampSimple_hosts_priming :
    Hosts (.rampSimple plan) (Point.InPriming (RampRegs.Fits plan)) (· = .configured) := by
  intro p r hp hr
  cases p with
  | primeWrote | primeLowered | primeNext => exact ⟨.inl hp, hr⟩
  | _ => exact False.elim hp

theorem rampSimple_hosts_steps :
    Hosts (.rampSimple plan) (Point.InStep (RampRegs.Fits plan)) (· = .steppingWithoutCapture) := by
  intro p r hp hr
  cases p with
  | stepNext | stepLowered | stepRaised | slept => exact ⟨.inr hp, hr⟩
  | _ => exact False.elim hp

theorem rampBuffered_hosts_priming :
    Hosts (.rampBuffered plan) (Point.InPriming (RampRegs.Fits plan)) (· = .configured) := by
  intro p r hp hr
  cases p with
  | primeWrote | primeLowered | primeNext => exact ⟨.inl hp, hr⟩
  | _ => exact False.elim hp

theorem rampBuffered_hosts_steps :
    Hosts (.rampBuffered plan) (Point.InStep (RampRegs.Fits plan)) (· = .steppingWithCapture) := by
  intro p r hp hr
  cases p with
  | stepNext | stepLowered | stepRaised | slept => exact ⟨.inr (.inl hp), hr⟩
  | _ => exact False.elim hp

theorem rampBuffered_hosts_pass :
    Hosts (.rampBuffered plan) (Point.InPass (Pass.IsRamp (RampRegs.Fits plan))) (· = .steppingWithCapture) := by
  intro p r hp hr
  cases p with
  | passNext | passPolling | passReady | passTimedOut | passCaptured => exact ⟨.inr (.inr hp), hr⟩
  | _ => exact False.elim hp

theorem simplePrimed_positionOk (regs : RampRegs) (hregs : regs.Fits plan) (hcalm : u.Calm (· = .configured))
    (h : simplePrimed plan k regs u = .next t) : t.PositionOk := by
  obtain ⟨hlatch, _, hadc⟩ := hcalm
  exact stepBoundary_positionOk rampSimple_hosts_steps h hregs ⟨hlatch, rfl, hadc⟩

theorem bufferedPrimed_positionOk (regs : RampRegs) (hregs : regs.Fits plan) (hcalm : u.Calm (· = .configured))
    (h : bufferedPrimed plan k regs u = .next t) : t.PositionOk := by
  obtain ⟨hlatch, _, hadc⟩ := hcalm
  exact startPass_positionOk rampBuffered_hosts_pass h hregs ⟨hlatch, rfl, hadc⟩

theorem execRampSimple_positionOk (hs : s.PositionOk) (h : execRampSimple plan s = .next t) : t.PositionOk := by
  obtain ⟨⟨hlatch, hramp, hadc⟩, h⟩ | ⟨k, p, ⟨hrests, hlatch, hadc, hramp⟩, h⟩ := running_cases hs h
  · dsimp only at h
    split at h
    · cases h
      exact positionOk_complete ⟨hlatch, hramp, hadc⟩
    · next dv hdv =>
      exact primeFrom_positionOk rampSimple_hosts_priming (fun _ => fits_voltageOverrange) simplePrimed_positionOk
        h ⟨hdv, .inl rfl⟩ ⟨hlatch, rfl, hadc⟩
  · cases p with
    | primeWrote | primeLowered | primeNext =>
      exact resumePrime_positionOk rampSimple_hosts_priming (fun _ => fits_voltageOverrange) simplePrimed_positionOk
        h (hrests.resolve_right id) hlatch hadc hramp
    | stepNext | stepLowered | stepRaised =>
      exact resumeStep_positionOk rampSimple_hosts_steps h (hrests.resolve_left id) hlatch hadc hramp
    | slept regs =>
      exact stepBoundary_positionOk rampSimple_hosts_steps h (hrests.resolve_left id) ⟨hlatch, hramp, hadc⟩
    | _ => exact hrests.elim False.elim False.elim

theorem endRampPass_positionOk {pass : Pass} (hpass : pass.IsRamp (RampRegs.Fits plan))
    (hcalm : u.Calm (· = .steppingWithCapture)) (h : endRampPass (.rampBuffered plan) plan k pass u = .next t) :
    t.PositionOk := by
  cases pass with
  | reading => cases h
  | ramp regs n =>
    have hcounted : (u.countPass n).Calm (· = .steppingWithCapture) := by simpa [State.Calm] using hcalm
    dsimp only [endRampPass] at h
    split at h
    · cases h
      exact endRamp_positionOk hcounted
    · exact stepBoundary_positionOk rampBuffered_hosts_steps h hpass hcounted

theorem abortRamp_positionOk {pass : Pass} (hcalm : u.Calm (· = .steppingWithCapture))
    (h : abortRamp pass u = .next t) : t.PositionOk := by
  cases pass <;> cases h
  exact endRamp_positionOk hcalm

theorem execRampBuffered_positionOk (hs : s.PositionOk) (h : execRampBuffered plan s = .next t) : t.PositionOk := by
  obtain ⟨⟨hlatch, hramp, hadc⟩, h⟩ | ⟨k, p, ⟨hrests, hlatch, hadc, hramp⟩, h⟩ := running_cases hs h
  · dsimp only at h
    split at h
    · cases h
      exact positionOk_complete ⟨hlatch, hramp, hadc⟩
    · next dv hdv =>
      exact primeFrom_positionOk rampBuffered_hosts_priming (fun _ => fits_voltageOverrange)
        bufferedPrimed_positionOk h ⟨hdv, .inl rfl⟩ ⟨hlatch, rfl, hadc⟩
  · cases p with
    | primeWrote | primeLowered | primeNext =>
      exact resumePrime_positionOk rampBuffered_hosts_priming (fun _ => fits_voltageOverrange)
        bufferedPrimed_positionOk h (hrests.resolve_right (Or.rec id id)) hlatch hadc hramp
    | stepNext | stepLowered | stepRaised =>
      exact resumeStep_positionOk rampBuffered_hosts_steps h ((hrests.resolve_left id).resolve_right id) hlatch hadc
        hramp
    | slept regs =>
      exact startPass_positionOk rampBuffered_hosts_pass h ((hrests.resolve_left id).resolve_right id)
        ⟨hlatch, hramp, hadc⟩
    | passNext | passPolling | passReady | passCaptured | passTimedOut =>
      exact resumePass_positionOk rampBuffered_hosts_pass h (fun _ _ => id)
        (fun _ _ => endRampPass_positionOk) (fun _ _ _ => abortRamp_positionOk)
        ((hrests.resolve_left id).resolve_left id) hlatch hadc hramp
    | _ => exact hrests.elim False.elim (Or.rec False.elim False.elim)

end Ramps

/-- Every instruction leaves a position at which it can rest, or a calm block (10 R21, R25, R32, 46 R238). -/
theorem exec_positionOk {i : Instr} {s t : State} (hs : s.PositionOk) (h : exec i s = .next t) : t.PositionOk := by
  unfold exec at h
  cases i with
  | buildFrame size count data =>
    dsimp only [execBuildFrame] at h
    split at h
    · split at h <;> exact completing_positionOk hs h
    · cases h
  | adcCfgEncode | adcCfgDecode | adcDisableAllEncode | dacC2v | dacWriteEncode | dacReadDecode | adcCodeDecode
  | readStatus => exact completing_positionOk hs h
  | dacV2c v =>
    dsimp only [execDacV2c] at h
    split at h <;> exact completing_positionOk hs h
  | rampPlan plan =>
    dsimp only [execRampPlan] at h
    split at h <;> exact completing_positionOk hs h
  | adcConfigureChannel => exact execAdcConfigureChannel_positionOk hs h
  | adcDisableAll =>
    obtain ⟨⟨hlatch, hramp, hadc⟩, h⟩ | ⟨k, p, ⟨rfl, hlatch, hadc, hramp⟩, h⟩ := running_cases hs h <;> cases h
    · exact positionOk_pause ⟨rfl, hlatch, hadc, hramp⟩
    · exact positionOk_complete ⟨hlatch, hramp, hadc⟩
  | adcSelectMode =>
    obtain ⟨⟨hlatch, hramp, _⟩, h⟩ | ⟨k, p, ⟨rfl, hlatch, hadc, hramp⟩, h⟩ := running_cases hs h <;> cases h
    · exact positionOk_pause ⟨rfl, hlatch, nofun, hramp⟩
    · exact positionOk_complete ⟨hlatch, hramp, hadc⟩
  | adcWaitDrdy => exact execAdcWaitDrdy_positionOk hs h
  | adcReadChannel => exact execAdcReadChannel_positionOk hs h
  | adcFullReading => exact execAdcFullReading_positionOk hs h
  | dacInitAll => exact execDacInitAll_positionOk hs h
  | dacSetVoltage => exact execDacSetVoltage_positionOk hs h
  | dacReadVoltage | dacReadRegister =>
    exact readback_positionOk (fun _ => Iff.rfl) (fun _ _ => Iff.rfl) hs h
  | dacUpdateOutputs => exact execDacUpdateOutputs_positionOk hs h
  | rampPrime => exact execRampPrime_positionOk hs h
  | rampSimple => exact execRampSimple_positionOk hs h
  | rampBuffered => exact execRampBuffered_positionOk hs h
  | wireAdcChcfg | wireAdcDisableAll | wireAdcMode | wireAdcDataRead | wireDacWrite | wireDacReadRequest
  | wireDacReadNull | wireDacInit => exact sendFrame_positionOk hs h
  | wirePoison =>
    dsimp only [execWirePoison] at h
    split at h <;> cases h
    exact hs

/-! ### The other parts of the invariant -/

/-- Every error has a code up to 10 (60 R260). -/
theorem Err.code_le (e : Err) : e.code.toNat ≤ 10 := by
  cases e <;> decide

theorem Takes.lastErr_le {i : Instr} {s t : State} (h : Takes i s t) (hs : s.lastErr.toNat ≤ 10) :
    t.lastErr.toNat ≤ 10 := by
  obtain ⟨_, herr, _⟩ | ⟨_, _, _, ⟨err, _, _, herr, _⟩ | ⟨_, herr⟩⟩ := h.makesOneEvent
  · rwa [herr]
  · rw [herr]
    exact err.code_le
  · rwa [herr]

theorem exec_inv {i : Instr} {s t : State} (hs : s.Inv) (h : exec i s = .next t) : t.Inv := by
  have htakes := exec_takes h
  refine ⟨exec_positionOk hs.position h, htakes.lastErr_le hs.lastErr, fun c => ?adcVoltage, fun c => ?readVoltage,
    fun c => ?constants, fun hsupport => ?cancel⟩
  case adcVoltage =>
    obtain ⟨hcode, hvolts⟩ | ⟨_, _, hcode, hvolts⟩ := htakes.adcResult c
    · rw [hcode, hvolts, hs.adcVoltage c]
    · rw [hcode, hvolts]
      rfl
  case readVoltage =>
    obtain hd | ⟨_, _, hd⟩ | ⟨_, _, hd⟩ := htakes.dacChannel c
    · rw [hd, hs.readVoltage c]
    · rw [hd]
      exact hs.readVoltage c
    · rw [hd]
      rfl
  case constants =>
    obtain ⟨hline, hge, hos⟩ := htakes.dacConstants c
    rw [hline, hge, hos, htakes.cfg]
    exact hs.constants c
  case cancel =>
    obtain hc | hc := htakes.cancelReq
    · rw [hc]
      exact hs.cancel (htakes.cfg ▸ hsupport)
    · exact hc

/-! ### Reset (10 R33, 70 R290 to R292) -/

/-- A vector written out channel by channel. -/
theorem getElem_dacChans {α : Type} (f : DacChan → α) (c : DacChan) : #v[f 0, f 1, f 2, f 3][c] = f c := by
  fin_cases c <;> rfl

theorem assertReset_dac (s : State) (c : DacChan) : s.assertReset.dac[c] = DacChannel.reset s.cfg c :=
  getElem_dacChans (DacChannel.reset s.cfg) c

theorem reset_dac (c : DacChan) : State.reset.dac[c] = DacChannel.reset .board c :=
  getElem_dacChans (DacChannel.reset .board) c

/-- Settles O2: the fields as reset writes them, the DAC records channel by channel. -/
theorem resetLeavesSpecValues : Obligations.ResetLeavesSpecValues := by
  unfold Obligations.ResetLeavesSpecValues
  refine ⟨rfl, fun i => ?adc, rfl, fun c => ?dac, rfl, rfl, rfl, rfl, rfl, rfl, rfl⟩
  case adc => simp [State.reset]
  case dac =>
    rw [reset_dac]
    exact ⟨rfl, rfl, rfl, rfl, rfl, rfl⟩

/-- Settles O4: the reset state is idle and calm, and has filed no result. -/
theorem resetHasInvariant : Obligations.ResetHasInvariant := by
  unfold Obligations.ResetHasInvariant
  exact {
    position := ⟨rfl, .inl rfl, nofun⟩
    lastErr := by decide
    adcVoltage := fun i => by simp [State.reset]
    readVoltage := fun c => by rw [reset_dac]; rfl
    constants := fun c => by rw [reset_dac]; exact ⟨rfl, rfl, rfl⟩
    cancel := fun _ => rfl }

/-- The invariant holds from the assertion of reset on, before its first event. -/
theorem assertReset_inv (s : State) : s.assertReset.Inv where
  position := ⟨Nat.zero_le 2, rfl, rfl, rfl⟩
  lastErr := Nat.zero_le 10
  adcVoltage i := by simp [State.assertReset]
  readVoltage c := by rw [assertReset_dac]; rfl
  constants c := by rw [assertReset_dac]; exact ⟨rfl, rfl, rfl⟩
  cancel _ := rfl

/-- The invariant reads the block's own fields; only the position speaks of the position and the latch. -/
theorem State.Inv.of_position {s t : State} (h : s.Inv) (hpos : t.PositionOk) (herr : t.lastErr.toNat ≤ 10)
    (hcode : t.adcCode = s.adcCode) (hvolts : t.adcVoltage = s.adcVoltage) (hdac : t.dac = s.dac)
    (hcfg : t.cfg = s.cfg) (hcancel : t.cancelReq = s.cancelReq) : t.Inv where
  position := hpos
  lastErr := herr
  adcVoltage := hcode ▸ hvolts ▸ h.adcVoltage
  readVoltage := hdac ▸ h.readVoltage
  constants := hdac ▸ hcfg ▸ h.constants
  cancel := hcfg ▸ hcancel ▸ h.cancel

theorem resetEvent_inv {s : State} {n : Nat} (hs : s.seqpos = .resetting n) (h : s.Inv) : (s.resetEvent n).Inv := by
  have hpos := h.position
  simp only [State.PositionOk, hs] at hpos
  obtain ⟨hn, hlatch, hramp, hadc⟩ := hpos
  match n with
  | 0 => exact h.of_position ⟨by decide, hlatch, hramp, hadc⟩ h.lastErr rfl rfl rfl rfl rfl
  | 1 => exact h.of_position ⟨by decide, rfl, hramp, hadc⟩ h.lastErr rfl rfl rfl rfl rfl
  | 2 => exact h.of_position ⟨hlatch, .inl hramp, by simp [State.resetEvent, hadc]⟩ h.lastErr rfl rfl rfl rfl rfl
  | _ + 3 => omega

/-! ### Steps -/

/-- The host sets `cancelReq` only where cancel is supported (10 R30). -/
theorem writeCancel_inv {s : State} (h : s.Inv) : s.writeCancel.Inv := by
  cases hsup : s.cfg.cancelSupported with
  | false => exact (writeCancel_unsupported hsup).symm ▸ h
  | true =>
    rw [writeCancel_supported hsup]
    exact ⟨h.position, h.lastErr, h.adcVoltage, h.readVoltage, h.constants,
      fun hno => absurd (hsup.symm.trans hno) (by decide)⟩

theorem takeSignal_inv {s : State} (h : s.Inv) : s.takeSignal.Inv := by
  obtain ht | ⟨rest, ht | ht | ht⟩ := takeSignal_cases s <;> rw [ht]
  · exact h
  · exact h.of_position h.position h.lastErr rfl rfl rfl rfl rfl
  · exact writeCancel_inv (h.of_position h.position h.lastErr rfl rfl rfl rfl rfl)
  · exact assertReset_inv _

theorem stepNow_inv {s t : State} (hs : s.Inv) (h : stepNow s = .next t) : t.Inv := by
  cases hpos : s.seqpos with
  | busy i k p => exact exec_inv hs (stepNow_busy hpos ▸ h)
  | resetting n =>
    rw [stepNow_resetting hpos] at h
    cases h
    exact resetEvent_inv hpos hs
  | idle =>
    cases hh : s.hostQueue with
    | nil =>
      rw [stepNow_wait hpos hh] at h
      cases h
      exact hs
    | cons d rest =>
      have hissued : ({ s with hostQueue := rest } : State).Inv :=
        hs.of_position hs.position hs.lastErr rfl rfl rfl rfl rfl
      cases hd : decode s.cfg d with
      | instr i => exact exec_inv hissued (stepNow_issue hpos hh hd ▸ h)
      | illegalOpcode o =>
        rw [stepNow_illegal hpos hh hd] at h
        cases h
        have hcalm : ({ s with hostQueue := rest } : State).Calm RampState.AtRest :=
          (positionOk_idle hpos).mp hs.position
        exact hs.of_position (positionOk_complete hcalm) (Err.code_le _) rfl rfl rfl rfl rfl
      | unknownFrame =>
        rw [stepNow_unknownFrame hpos hh hd] at h
        cases h

/-- Settles O5: the host's signal, an event of the reset sequence and a step of an instruction each keep the
invariant. -/
theorem stepKeepsInvariant : Obligations.StepKeepsInvariant := by
  unfold Obligations.StepKeepsInvariant
  exact fun s t hs h => stepNow_inv (takeSignal_inv hs) h

end Sys2Proof.Machine
end

section
/-!
Scope. `adcState` gates no instruction: forgetting it before an instruction changes nothing but what the instruction
itself leaves in it (44 R199). `READ_STATUS` alone shows it.
-/

namespace Sys2Proof.Machine

/-- `body` does the same on the state without `adcState`, but for what it leaves in `adcState`. -/
def IgnoresAdcState (body : State → Outcome) : Prop :=
  ∀ s, mapNext State.withoutAdcState (body s.withoutAdcState) = mapNext State.withoutAdcState (body s)

/-! ### The shared parts of operations -/

theorem running_ignoresAdcState {i : Instr} {body : Nat → Point → State → Outcome}
    (h : ∀ k p, IgnoresAdcState (body k p)) : IgnoresAdcState fun s => running i s body := by
  intro s
  have hsame : s.withoutAdcState.pointOf i = s.pointOf i := rfl
  simp only [running, hsame]
  cases s.pointOf i with
  | none => rfl
  | some place => exact h place.1 place.2 s

theorem completing_ignoresAdcState (i : Instr) (err : Err) (value : Value) :
    IgnoresAdcState (completing i err value) :=
  running_ignoresAdcState fun _ p _ => by cases p <;> rfl

theorem sendFrame_ignoresAdcState (line : Line) (bytes : List Byte) : IgnoresAdcState (sendFrame line bytes) := by
  intro s
  have hsame : s.withoutAdcState.seqpos = s.seqpos := rfl
  simp only [sendFrame, hsame]
  cases s.seqpos <;> rfl

/-- Both ends of a pass start with `adcState` at `Idle`, whatever it was (44 R197). -/
theorem resumePass_ignoresAdcState (i : Instr) (atEnd onTimeout : Pass → State → Outcome) (k : Nat) (p : Point) :
    IgnoresAdcState (resumePass i atEnd onTimeout k p) := by
  intro s
  cases p with
  | passNext pass todo => cases todo <;> rfl
  | _ => rfl

theorem initNext_ignoresAdcState (k : Nat) (todo : List DacChan) : IgnoresAdcState (initNext k todo) := by
  cases todo <;> exact fun _ => rfl

theorem readDac_ignoresAdcState (i : Instr) (c : DacChan) (result : DacCode → Value) (k : Nat) (p : Point) :
    IgnoresAdcState (readDac i c result k p) := by
  cases p <;> exact fun _ => rfl

theorem primeFrom_ignoresAdcState {i : Instr} {v : Vector Volts 4} {primed : RampRegs → State → Outcome}
    (hprimed : ∀ regs, IgnoresAdcState (primed regs)) (k : Nat) (regs : RampRegs) (todo : List DacChan) :
    IgnoresAdcState (primeFrom i v primed k regs todo) := by
  intro s
  unfold primeFrom
  generalize skipOverrange (fun c => v[c]) regs.rampErr todo = found
  obtain ⟨err, _ | ⟨c, rest⟩⟩ := found
  · exact hprimed { regs with rampErr := err } s
  · rfl

theorem resumePrime_ignoresAdcState {i : Instr} {v : Vector Volts 4} {primed : RampRegs → State → Outcome}
    (hprimed : ∀ regs, IgnoresAdcState (primed regs)) (k : Nat) (p : Point) :
    IgnoresAdcState (resumePrime i v primed k p) := by
  cases p with
  | primeNext regs todo => exact primeFrom_ignoresAdcState hprimed k regs todo
  | _ => exact fun _ => rfl

theorem stepFrom_ignoresAdcState (i : Instr) (plan : Plan) (k : Nat) (regs : RampRegs) (todo : List DacChan) :
    IgnoresAdcState (stepFrom i plan k regs todo) := by
  intro s
  unfold stepFrom
  generalize skipOverrange (stepVoltage plan regs) regs.rampErr todo = found
  obtain ⟨err, _ | ⟨c, rest⟩⟩ := found <;> rfl

theorem stepBoundary_ignoresAdcState (i : Instr) (plan : Plan) (passes : BitVec 32) (k : Nat) (regs : RampRegs) :
    IgnoresAdcState (stepBoundary i plan passes k regs) := by
  intro s
  have hsame : s.withoutAdcState.cancelBit = s.cancelBit := rfl
  unfold stepBoundary
  rw [hsame]
  split
  · rfl
  · split
    · rfl
    · exact stepFrom_ignoresAdcState i plan k regs _ s

theorem resumeStep_ignoresAdcState (i : Instr) (plan : Plan) (k : Nat) (p : Point) :
    IgnoresAdcState (resumeStep i plan k p) := by
  cases p with
  | stepNext regs todo => exact stepFrom_ignoresAdcState i plan k regs todo
  | _ => exact fun _ => rfl

/-! ### Ramps -/

theorem execRampPrime_ignoresAdcState (mask : BitVec 4) (vInitial : Vector Volts 4) :
    IgnoresAdcState (execRampPrime mask vInitial) := by
  refine running_ignoresAdcState fun k p => ?_
  cases p with
  | start => exact primeFrom_ignoresAdcState (fun _ _ => rfl) k _ _
  | _ => exact resumePrime_ignoresAdcState (fun _ _ => rfl) k _

theorem simplePrimed_ignoresAdcState (plan : Plan) (k : Nat) (regs : RampRegs) :
    IgnoresAdcState (simplePrimed plan k regs) :=
  fun s => stepBoundary_ignoresAdcState _ plan 0 k _ (s.primed .steppingWithoutCapture)

theorem execRampSimple_ignoresAdcState (plan : Plan) : IgnoresAdcState (execRampSimple plan) := by
  refine running_ignoresAdcState fun k p s => ?_
  cases p with
  | start =>
    dsimp only
    cases rampDeltas plan with
    | none => rfl
    | some dv => exact primeFrom_ignoresAdcState (simplePrimed_ignoresAdcState plan k) k _ _ s.beginRamp
  | primeWrote | primeLowered | primeNext =>
    exact resumePrime_ignoresAdcState (simplePrimed_ignoresAdcState plan k) k _ s
  | slept => exact stepBoundary_ignoresAdcState _ plan 0 k _ s
  | _ => exact resumeStep_ignoresAdcState _ plan k _ s

theorem bufferedPrimed_ignoresAdcState (plan : Plan) (k : Nat) (regs : RampRegs) :
    IgnoresAdcState (bufferedPrimed plan k regs) := fun _ => rfl

theorem execRampBuffered_ignoresAdcState (plan : Plan) : IgnoresAdcState (execRampBuffered plan) := by
  refine running_ignoresAdcState fun k p s => ?_
  cases p with
  | start =>
    dsimp only
    cases rampDeltas plan with
    | none => rfl
    | some dv => exact primeFrom_ignoresAdcState (bufferedPrimed_ignoresAdcState plan k) k _ _ s.beginRamp
  | primeWrote | primeLowered | primeNext =>
    exact resumePrime_ignoresAdcState (bufferedPrimed_ignoresAdcState plan k) k _ s
  | stepNext | stepLowered | stepRaised => exact resumeStep_ignoresAdcState _ plan k _ s
  | slept => rfl
  | _ => exact resumePass_ignoresAdcState _ _ _ k _ s

/-! ### Operations -/

/-- No instruction but `READ_STATUS` reads `adcState` (44 R199). -/
theorem exec_ignoresAdcState {i : Instr} (hi : i ≠ .readStatus) : IgnoresAdcState (exec i) := by
  intro s
  unfold exec
  cases i with
  | readStatus => exact absurd rfl hi
  | buildFrame size count data =>
    dsimp only [execBuildFrame]
    split
    · split <;> exact completing_ignoresAdcState _ _ _ s
    · rfl
  | adcCfgEncode | adcCfgDecode | adcDisableAllEncode | dacC2v | dacReadDecode | adcCodeDecode =>
    exact completing_ignoresAdcState _ _ _ s
  | dacWriteEncode code => exact completing_ignoresAdcState _ .none (.bytes3 (writeFrame s.cfg code)) s
  | dacV2c v =>
    have hsame : s.withoutAdcState.cfg.rounding = s.cfg.rounding := rfl
    dsimp only [execDacV2c]
    rw [hsame]
    cases voltageToCode s.cfg.rounding v <;> exact completing_ignoresAdcState _ _ _ s
  | rampPlan plan =>
    dsimp only [execRampPlan]
    cases rampDeltas plan <;> exact completing_ignoresAdcState _ _ _ s
  | adcConfigureChannel =>
    refine running_ignoresAdcState (fun k p s => ?_) s
    cases p with
    | start =>
      dsimp only
      split <;> rfl
    | _ => rfl
  | adcDisableAll | adcSelectMode | adcWaitDrdy | adcReadChannel | dacUpdateOutputs =>
    exact running_ignoresAdcState (fun k p s => by cases p <;> rfl) s
  | adcFullReading =>
    refine running_ignoresAdcState (fun k p s => ?_) s
    cases p with
    | start => rfl
    | _ => exact resumePass_ignoresAdcState _ _ _ k _ s
  | dacInitAll =>
    refine running_ignoresAdcState (fun k p s => ?_) s
    cases p with
    | start | initNext => exact initNext_ignoresAdcState k _ s
    | _ => rfl
  | dacSetVoltage channel v updateOutputs =>
    refine running_ignoresAdcState (fun k p s => ?_) s
    cases p with
    | start =>
      have hsame : s.withoutAdcState.cfg.rounding = s.cfg.rounding := rfl
      dsimp only
      rw [hsame]
      cases voltageToCode s.cfg.rounding v <;> rfl
    | _ => rfl
  | dacReadVoltage | dacReadRegister => exact running_ignoresAdcState (readDac_ignoresAdcState _ _ _) s
  | rampPrime mask vInitial => exact execRampPrime_ignoresAdcState mask vInitial s
  | rampSimple plan => exact execRampSimple_ignoresAdcState plan s
  | rampBuffered plan => exact execRampBuffered_ignoresAdcState plan s
  | wireAdcChcfg | wireAdcDisableAll => exact sendFrame_ignoresAdcState _ _ s
  | wireAdcMode => exact sendFrame_ignoresAdcState _ s.cfg.adcModeFrame.toList s
  | wireAdcDataRead => exact sendFrame_ignoresAdcState _ (dataReadPattern s.cfg) s
  | wireDacWrite channel code =>
    exact sendFrame_ignoresAdcState _ (bytesOfPattern (dacWriteWord s.cfg.dacWriteNibble code)).toList s
  | wireDacReadRequest => exact sendFrame_ignoresAdcState _ s.cfg.dacReadReq.toList s
  | wireDacReadNull => exact sendFrame_ignoresAdcState _ _ s
  | wireDacInit => exact sendFrame_ignoresAdcState _ s.cfg.dacInitFrame.toList s
  | wirePoison =>
    have hsame : s.withoutAdcState.seqpos = s.seqpos := rfl
    simp only [execWirePoison, hsame]
    cases s.seqpos <;> rfl

/-- Settles O58: the outcomes from both states are, but for `adcState`, the outcome from the one state without it. -/
theorem adcStateGatesNothing : Obligations.AdcStateGatesNothing := by
  unfold Obligations.AdcStateGatesNothing
  intro i s u hi h
  rw [outcomesAgree_iff]
  calc mapNext State.withoutAdcState (exec i s)
      = mapNext State.withoutAdcState (exec i s.withoutAdcState) := (exec_ignoresAdcState hi s).symm
    _ = mapNext State.withoutAdcState (exec i u.withoutAdcState) := by rw [h]
    _ = mapNext State.withoutAdcState (exec i u) := exec_ignoresAdcState hi u

end Sys2Proof.Machine
end

section
/-!
Scope. `MemWrite` and `MemRead` over a byte list (20 R60, R67), by induction on the number of bytes.
-/

namespace Sys2Proof.Machine

@[simp] theorem memWrite_length (frame : List Byte) (i n v : Nat) : (memWrite frame i n v).length = frame.length := by
  induction n generalizing frame i with
  | zero => rfl
  | succ n ih => simp [memWrite, ih]

/-- `MemWrite` writes no byte outside its `n`. -/
theorem memWrite_getElem?_outside (frame : List Byte) {i n v j : Nat} (hj : j < i ∨ i + n ≤ j) :
    (memWrite frame i n v)[j]? = frame[j]? := by
  induction n generalizing frame i with
  | zero => rfl
  | succ n ih =>
    rw [memWrite, ih _ (by omega), List.getElem?_set_ne (by omega)]

/-- The first byte written is the most significant one; the later ones leave it. -/
theorem memWrite_getElem?_first {frame : List Byte} {i n v : Nat} (hi : i < frame.length) :
    (memWrite frame i (n + 1) v)[i]? = some (BitVec.ofNat 8 (v / 256 ^ n)) := by
  rw [memWrite, memWrite_getElem?_outside _ (.inl (Nat.lt_succ_self i)), List.getElem?_set_self hi]

theorem memWrite_getElem?_inside {frame : List Byte} {i n v j : Nat} (hfits : i + n ≤ frame.length) (hj : j < n) :
    (memWrite frame i n v)[i + j]? = some (BitVec.ofNat 8 (v / 256 ^ (n - 1 - j))) := by
  induction n generalizing frame i j with
  | zero => exact absurd hj (Nat.not_lt_zero j)
  | succ n ih =>
    cases j with
    | zero => exact memWrite_getElem?_first (by omega)
    | succ j =>
      have hrest := ih (frame := frame.set i (BitVec.ofNat 8 (v / 256 ^ n))) (i := i + 1) (j := j)
        (by simp; omega) (by omega)
      have hindex : i + (j + 1) = i + 1 + j := by omega
      have hweight : n + 1 - 1 - (j + 1) = n - 1 - j := by omega
      rw [memWrite, hindex, hweight, hrest]

theorem memRead_memWrite {frame : List Byte} {i n v : Nat} (hfits : i + n ≤ frame.length) :
    memRead (memWrite frame i n v) i n = v % 256 ^ n := by
  induction n generalizing frame i with
  | zero => simp [memRead, Nat.mod_one]
  | succ n ih =>
    have hfirst : (memWrite frame i (n + 1) v).getD i 0 = BitVec.ofNat 8 (v / 256 ^ n) := by
      rw [List.getD_eq_getElem?_getD, memWrite_getElem?_first (by omega), Option.getD_some]
    have hrest : memRead (memWrite frame i (n + 1) v) (i + 1) n = v % 256 ^ n := ih (by simp; omega)
    calc memRead (memWrite frame i (n + 1) v) i (n + 1)
        = v / 256 ^ n % 256 * 256 ^ n + v % 256 ^ n := by rw [memRead, hfirst, hrest, BitVec.toNat_ofNat]
      _ = v % 256 ^ (n + 1) := by rw [Nat.mod_pow_succ, Nat.mul_comm, Nat.add_comm]

/-- Settles O14: by induction on the number of bytes, the first byte being the most significant one. -/
theorem memWriteIsReadBack : Obligations.MemWriteIsReadBack := by
  unfold Obligations.MemWriteIsReadBack
  exact fun frame i n v hfits => ⟨memWrite_length frame i n v, memRead_memWrite hfits,
    fun _ => memWrite_getElem?_inside hfits, fun _ => memWrite_getElem?_outside frame⟩

end Sys2Proof.Machine
end

section
/-!
Scope. The environment's answers are free (20 R66), and what the reference DAC makes of a latch pulse and of a readback
(20 R80 to R82).
-/

namespace Sys2Proof.Machine

/-- Settles O1: the answer queued first is the one received. -/
theorem environmentAnswersAreFree : Obligations.EnvironmentAnswersAreFree := by
  unfold Obligations.EnvironmentAnswersAreFree
  refine ⟨fun s rx => ?bytes, fun s lvl => ?level, fun s n => rxFor_length n s⟩
  case bytes => exact rxFor_answer (rest := s.rxAnswers) rfl
  case level => exact levelNow_answer (rest := s.levelAnswers) rfl

/-! ### The latch pulse -/

/-- A whole pulse commits every channel at once (20 R82). -/
theorem observe_pulse (cfg : Config) (chips : RefChips) :
    (chips.observe cfg (.setLevel .latch .low)).observe cfg (.setLevel .latch .high) =
      { chips with latchLow := false, dac := chips.dac.map RefDacChannel.commit } := rfl

theorem commit_eq (ch : RefDacChannel) :
    ch.commit = { ch with out := if ch.pend then ch.reg else ch.out, pend := false } := by
  obtain ⟨_, _, _, pend, _⟩ := ch
  cases pend <;> rfl

/-- `DAC_UPDATE_OUTPUTS` makes a whole pulse in its first two events (45 R213, R214). -/
theorem execs_dacUpdateOutputs {s : State} (hs : s.IsIdle) :
    execs .dacUpdateOutputs 2 s = .next ((bigPulse s).pause .dacUpdateOutputs 2 (.finish .none .unit)) := by
  have hlow : exec .dacUpdateOutputs s = .next ((s.setLatch .low).pause .dacUpdateOutputs 1 .pulseLow) := by
    rw [exec, execDacUpdateOutputs, running_idle hs]
  rw [execs, hlow]
  rfl

/-- Settles O59: the two events are a whole pulse, which commits every channel. -/
theorem latchPulseCommitsPendingCodes : Obligations.LatchPulseCommitsPendingCodes := by
  unfold Obligations.LatchPulseCommitsPendingCodes
  intro s t hs h c
  rw [execs_dacUpdateOutputs hs] at h
  cases h
  have hpulse : (bigPulse s).chips = _ := observe_pulse s.cfg s.chips
  have hchannel : (bigPulse s).chips.dac[c] = s.chips.dac[c].commit := by simp [hpulse]
  rw [commit_eq] at hchannel
  exact ⟨hchannel, congrArg RefDacChannel.analogOutput hchannel⟩

/-! ### Readback -/

/-- The mask of R176 keeps the low 20 bits of the response, bit by bit (20 R81). -/
theorem readDecode_eq (f : Bytes3) : readDecode f = dacCodeOfBytes f := by
  refine BitVec.eq_of_getLsbD_eq fun i hi => ?_
  unfold readDecode dacCodeOfBytes
  simp only [BitVec.getLsbD_append]
  interval_cases i <;> simp

/-- A read request arms the readback and keeps the code, when it can be told from the initialisation (20 R81). -/
theorem receive_dacReadReq {cfg : Config} (hcfg : cfg.FramesDistinct = true) (ch : RefDacChannel) :
    ch.receive cfg cfg.dacReadReq.toList = { ch with readArmed := true } := by
  have hinit : cfg.dacReadReq ≠ cfg.dacInitFrame := by
    simp only [Config.FramesDistinct, Bool.and_eq_true, bne_iff_ne] at hcfg
    obtain ⟨⟨⟨⟨_, hne⟩, _⟩, _⟩, _⟩ := hcfg
    exact hne
  exact (if_neg hinit).trans (if_pos rfl)

/-- While a readback is armed, an answer that agrees with the reference DAC carries the code of the channel. -/
theorem dacCodeOfBytes_of_agrees {chips : RefChips} {c : DacChan} {f : Frame} {hold : Bool} {rx : List Byte}
    (harmed : chips.dac[c].readArmed = true) (h : chips.Agrees (.transfer (.sync c) f hold rx) = true) :
    dacCodeOfBytes ⟨rx.getD 0 0, rx.getD 1 0, rx.getD 2 0⟩ = chips.dac[c].reg := by
  simp only [RefChips.Agrees, harmed, if_true] at h
  split at h
  · exact eq_of_beq h
  · cases h

/-- The second transfer of a readback delivers the code of an armed channel, if its answer agrees (45 R215). -/
theorem nextDacCode_of_agrees {s : State} {c : DacChan} {f : Frame} {hold : Bool}
    (harmed : s.chips.dac[c].readArmed = true)
    (h : s.chips.Agrees (.transfer (.sync c) f hold (s.rxFor 3)) = true) :
    s.nextDacCode = s.chips.dac[c].reg :=
  (readDecode_eq _).trans (dacCodeOfBytes_of_agrees harmed h)

/-- The first event of `DAC_READ_VOLTAGE` (45 R215). -/
theorem exec_dacReadVoltage_idle {s : State} {c : DacChan} (hs : s.IsIdle) :
    exec (.dacReadVoltage c) s =
      .next ((s.transfer (.sync c) s.cfg.dacReadReq.toList).pause (.dacReadVoltage c) 1 .readRequested) := by
  rw [exec, execDacReadVoltage, running_idle hs]
  rfl

/-- The second event of `DAC_READ_VOLTAGE` (45 R215). -/
theorem exec_dacReadVoltage_requested {s : State} {c : DacChan} {k : Nat}
    (hs : s.seqpos = .busy (.dacReadVoltage c) k .readRequested) :
    exec (.dacReadVoltage c) s = .next ((s.readDacBack c).pause (.dacReadVoltage c) (k + 1)
      (.finish .none (.volts (codeToVoltage s.nextDacCode)))) := by
  rw [exec, execDacReadVoltage, running_busy hs]
  rfl

/-- The last event of `DAC_READ_VOLTAGE` (45 R216). -/
theorem exec_dacReadVoltage_finish {s : State} {c : DacChan} {k : Nat} {err : Err} {value : Value}
    (hs : s.seqpos = .busy (.dacReadVoltage c) k (.finish err value)) :
    exec (.dacReadVoltage c) s = .next (s.complete err value) := by
  rw [exec, execDacReadVoltage, running_busy hs]
  rfl

/-- After the read request the channel is armed and its code is as before (20 R81, 45 R215). -/
theorem readRequest_next {s t : State} {c : DacChan} (hcfg : s.cfg.FramesDistinct = true) (hs : s.IsIdle)
    (h : exec (.dacReadVoltage c) s = .next t) :
    t.seqpos = .busy (.dacReadVoltage c) 1 .readRequested ∧
    t.chips.dac[c] = { s.chips.dac[c] with readArmed := true } := by
  cases (exec_dacReadVoltage_idle hs).symm.trans h
  rw [← receive_dacReadReq hcfg]
  exact ⟨rfl, Vector.getElem_set_self _⟩

/-- An agreeing answer to the second transfer is filed under the channel and reported (45 R215, R216). -/
theorem readback_of_agrees {s t : State} {c : DacChan} {k : Nat} {e : Event}
    (hs : s.seqpos = .busy (.dacReadVoltage c) k .readRequested) (harmed : s.chips.dac[c].readArmed = true)
    (h : exec (.dacReadVoltage c) s = .next t) (hlog : t.log = e :: s.log) (hagrees : s.chips.Agrees e = true) :
    t.dac[c].lastReadCode = some s.chips.dac[c].reg ∧
    exec (.dacReadVoltage c) t = .next (t.complete .none (.volts (codeToVoltage s.chips.dac[c].reg))) := by
  rw [exec_dacReadVoltage_requested hs] at h
  cases h
  rw [State.pause_log, State.readDacBack_log, List.cons.injEq] at hlog
  obtain ⟨rfl, _⟩ := hlog
  have hcode := nextDacCode_of_agrees harmed hagrees
  refine ⟨by simp [hcode], ?_⟩
  rw [← hcode]
  exact exec_dacReadVoltage_finish rfl

/-- Settles O60: the read request arms the channel, so an agreeing second answer carries its code. -/
theorem readbackUnderReferenceDac : Obligations.ReadbackUnderReferenceDac := by
  unfold Obligations.ReadbackUnderReferenceDac
  intro s t₁ t₂ c e hcfg hs h₁ h₂ hlog hagrees
  obtain ⟨hbusy, hchannel⟩ := readRequest_next hcfg hs h₁
  have hback := readback_of_agrees hbusy (by rw [hchannel]) h₂ hlog hagrees
  rwa [hchannel] at hback

end Sys2Proof.Machine
end

section
/-!
Scope. No rule of the block reads the reference chips (20 R84): a step from the state without them does the same, but
for what its event leaves in them.
-/

namespace Sys2Proof.Machine

/-- `body` does the same on the state without the chips, but for what it leaves in the chips. -/
def IgnoresChips (body : State → Outcome) : Prop :=
  ∀ s, mapNext State.withoutChips (body s.withoutChips) = mapNext State.withoutChips (body s)

/-! ### The shared parts of operations -/

theorem running_ignoresChips {i : Instr} {body : Nat → Point → State → Outcome}
    (h : ∀ k p, IgnoresChips (body k p)) : IgnoresChips fun s => running i s body := by
  intro s
  have hsame : s.withoutChips.pointOf i = s.pointOf i := rfl
  simp only [running, hsame]
  cases s.pointOf i with
  | none => rfl
  | some place => exact h place.1 place.2 s

theorem completing_ignoresChips (i : Instr) (err : Err) (value : Value) :
    IgnoresChips (completing i err value) :=
  running_ignoresChips fun _ p _ => by cases p <;> rfl

theorem sendFrame_ignoresChips (line : Line) (bytes : List Byte) : IgnoresChips (sendFrame line bytes) := by
  intro s
  have hsame : s.withoutChips.seqpos = s.seqpos := rfl
  simp only [sendFrame, hsame]
  cases s.seqpos <;> rfl

theorem resumePass_ignoresChips {i : Instr} {atEnd onTimeout : Pass → State → Outcome}
    (hend : ∀ pass, IgnoresChips (atEnd pass)) (htimeout : ∀ pass, IgnoresChips (onTimeout pass))
    (k : Nat) (p : Point) : IgnoresChips (resumePass i atEnd onTimeout k p) := by
  intro s
  cases p with
  | passNext pass todo =>
    cases todo with
    | nil => exact hend pass { s with adcState := .idle }
    | cons => rfl
  | passTimedOut pass => exact htimeout pass { s with adcState := .idle }
  | _ => rfl

theorem primeFrom_ignoresChips {i : Instr} {v : Vector Volts 4} {primed : RampRegs → State → Outcome}
    (hprimed : ∀ regs, IgnoresChips (primed regs)) (k : Nat) (regs : RampRegs) (todo : List DacChan) :
    IgnoresChips (primeFrom i v primed k regs todo) := by
  intro s
  unfold primeFrom
  generalize skipOverrange (fun c => v[c]) regs.rampErr todo = found
  obtain ⟨err, _ | ⟨c, rest⟩⟩ := found
  · exact hprimed { regs with rampErr := err } s
  · rfl

theorem resumePrime_ignoresChips {i : Instr} {v : Vector Volts 4} {primed : RampRegs → State → Outcome}
    (hprimed : ∀ regs, IgnoresChips (primed regs)) (k : Nat) (p : Point) :
    IgnoresChips (resumePrime i v primed k p) := by
  cases p with
  | primeNext regs todo => exact primeFrom_ignoresChips hprimed k regs todo
  | _ => exact fun _ => rfl

theorem stepFrom_ignoresChips (i : Instr) (plan : Plan) (k : Nat) (regs : RampRegs) (todo : List DacChan) :
    IgnoresChips (stepFrom i plan k regs todo) := by
  intro s
  unfold stepFrom
  generalize skipOverrange (stepVoltage plan regs) regs.rampErr todo = found
  obtain ⟨err, _ | ⟨c, rest⟩⟩ := found <;> rfl

theorem stepBoundary_ignoresChips (i : Instr) (plan : Plan) (passes : BitVec 32) (k : Nat) (regs : RampRegs) :
    IgnoresChips (stepBoundary i plan passes k regs) := by
  intro s
  have hsame : s.withoutChips.cancelBit = s.cancelBit := rfl
  unfold stepBoundary
  rw [hsame]
  split
  · rfl
  · split
    · rfl
    · exact stepFrom_ignoresChips i plan k regs _ s

theorem resumeStep_ignoresChips (i : Instr) (plan : Plan) (k : Nat) (p : Point) :
    IgnoresChips (resumeStep i plan k p) := by
  cases p with
  | stepNext regs todo => exact stepFrom_ignoresChips i plan k regs todo
  | _ => exact fun _ => rfl

theorem countPass_withoutChips (pass : Nat) (s : State) :
    s.withoutChips.countPass pass = (s.countPass pass).withoutChips := by
  simp only [State.countPass, apply_ite State.withoutChips]
  rfl

theorem endRampPass_ignoresChips (i : Instr) (plan : Plan) (k : Nat) (pass : Pass) :
    IgnoresChips (endRampPass i plan k pass) := by
  intro s
  cases pass with
  | reading => rfl
  | ramp regs n =>
    dsimp only [endRampPass]
    rw [countPass_withoutChips]
    split
    · rfl
    · exact stepBoundary_ignoresChips i plan _ k _ (s.countPass n)

/-! ### Operations -/

theorem execRampSimple_ignoresChips (plan : Plan) : IgnoresChips (execRampSimple plan) := by
  have hprimed (k regs) : IgnoresChips (simplePrimed plan k regs) :=
    fun s => stepBoundary_ignoresChips _ plan 0 k _ (s.primed .steppingWithoutCapture)
  refine running_ignoresChips fun k p s => ?_
  cases p with
  | start =>
    dsimp only
    cases rampDeltas plan with
    | none => rfl
    | some dv => exact primeFrom_ignoresChips (hprimed k) k _ _ s.beginRamp
  | primeWrote | primeLowered | primeNext => exact resumePrime_ignoresChips (hprimed k) k _ s
  | slept => exact stepBoundary_ignoresChips _ plan 0 k _ s
  | _ => exact resumeStep_ignoresChips _ plan k _ s

theorem execRampBuffered_ignoresChips (plan : Plan) : IgnoresChips (execRampBuffered plan) := by
  have hprimed (k regs) : IgnoresChips (bufferedPrimed plan k regs) := fun _ => rfl
  have habort (pass) : IgnoresChips (abortRamp pass) := by cases pass <;> exact fun _ => rfl
  refine running_ignoresChips fun k p s => ?_
  cases p with
  | start =>
    dsimp only
    cases rampDeltas plan with
    | none => rfl
    | some dv => exact primeFrom_ignoresChips (hprimed k) k _ _ s.beginRamp
  | primeWrote | primeLowered | primeNext => exact resumePrime_ignoresChips (hprimed k) k _ s
  | stepNext | stepLowered | stepRaised => exact resumeStep_ignoresChips _ plan k _ s
  | slept => rfl
  | _ => exact resumePass_ignoresChips (endRampPass_ignoresChips _ plan k) habort k _ s

/-- No instruction reads the chips (20 R84). -/
theorem exec_ignoresChips (i : Instr) : IgnoresChips (exec i) := by
  intro s
  unfold exec
  cases i with
  | buildFrame size count data =>
    dsimp only [execBuildFrame]
    split
    · split <;> exact completing_ignoresChips _ _ _ s
    · rfl
  | adcCfgEncode | adcCfgDecode | adcDisableAllEncode | dacC2v | dacReadDecode | adcCodeDecode =>
    exact completing_ignoresChips _ _ _ s
  | dacWriteEncode code => exact completing_ignoresChips _ .none (.bytes3 (writeFrame s.cfg code)) s
  | readStatus => exact completing_ignoresChips _ .none (.status s.status) s
  | dacV2c v =>
    have hsame : s.withoutChips.cfg.rounding = s.cfg.rounding := rfl
    dsimp only [execDacV2c]
    rw [hsame]
    cases voltageToCode s.cfg.rounding v <;> exact completing_ignoresChips _ _ _ s
  | rampPlan plan =>
    dsimp only [execRampPlan]
    cases rampDeltas plan <;> exact completing_ignoresChips _ _ _ s
  | adcConfigureChannel =>
    refine running_ignoresChips (fun k p s => ?_) s
    cases p with
    | start =>
      dsimp only
      split <;> rfl
    | _ => rfl
  | adcDisableAll | adcSelectMode | adcWaitDrdy | adcReadChannel | dacUpdateOutputs | dacReadVoltage
  | dacReadRegister =>
    exact running_ignoresChips (fun k p s => by cases p <;> rfl) s
  | adcFullReading =>
    refine running_ignoresChips (fun k p s => ?_) s
    cases p with
    | start => rfl
    | _ =>
      exact resumePass_ignoresChips (fun pass _ => by cases pass <;> rfl) (fun pass _ => by cases pass <;> rfl) k _ s
  | dacInitAll =>
    refine running_ignoresChips (fun k p s => ?_) s
    cases p with
    | initNext todo => cases todo <;> rfl
    | _ => rfl
  | dacSetVoltage channel v updateOutputs =>
    refine running_ignoresChips (fun k p s => ?_) s
    cases p with
    | start =>
      have hsame : s.withoutChips.cfg.rounding = s.cfg.rounding := rfl
      dsimp only
      rw [hsame]
      cases voltageToCode s.cfg.rounding v <;> rfl
    | _ => rfl
  | rampPrime mask vInitial =>
    refine running_ignoresChips (fun k p => ?_) s
    cases p with
    | start => exact primeFrom_ignoresChips (fun _ _ => rfl) k _ _
    | _ => exact resumePrime_ignoresChips (fun _ _ => rfl) k _
  | rampSimple plan => exact execRampSimple_ignoresChips plan s
  | rampBuffered plan => exact execRampBuffered_ignoresChips plan s
  | wireAdcChcfg | wireAdcDisableAll => exact sendFrame_ignoresChips _ _ s
  | wireAdcMode => exact sendFrame_ignoresChips _ s.cfg.adcModeFrame.toList s
  | wireAdcDataRead => exact sendFrame_ignoresChips _ (dataReadPattern s.cfg) s
  | wireDacWrite channel code =>
    exact sendFrame_ignoresChips _ (bytesOfPattern (dacWriteWord s.cfg.dacWriteNibble code)).toList s
  | wireDacReadRequest => exact sendFrame_ignoresChips _ s.cfg.dacReadReq.toList s
  | wireDacReadNull => exact sendFrame_ignoresChips _ _ s
  | wireDacInit => exact sendFrame_ignoresChips _ s.cfg.dacInitFrame.toList s
  | wirePoison =>
    have hsame : s.withoutChips.seqpos = s.seqpos := rfl
    simp only [execWirePoison, hsame]
    cases s.seqpos <;> rfl

/-! ### Steps -/

theorem takeSignal_withoutChips (s : State) : s.withoutChips.takeSignal = s.takeSignal.withoutChips := by
  have hsame : s.withoutChips.signals = s.signals := rfl
  unfold State.takeSignal
  rw [hsame]
  cases s.signals with
  | nil => rfl
  | cons signal rest =>
    cases signal with
    | quiet | reset => rfl
    | cancel =>
      simp only [State.writeCancel, apply_ite State.withoutChips]
      rfl

theorem stepNow_ignoresChips : IgnoresChips stepNow := by
  intro s
  cases hs : s.seqpos with
  | busy i k p =>
    rw [stepNow_busy hs, stepNow_busy (s := s.withoutChips) hs]
    exact exec_ignoresChips i s
  | resetting n =>
    rw [stepNow_resetting hs, stepNow_resetting (s := s.withoutChips) hs]
    match n with
    | 0 | 1 | _ + 2 => rfl
  | idle =>
    have hs' : s.withoutChips.seqpos = .idle := hs
    cases hh : s.hostQueue with
    | nil =>
      rw [stepNow_wait hs hh, stepNow_wait hs' hh]
      rfl
    | cons d rest =>
      have hh' : s.withoutChips.hostQueue = d :: rest := hh
      cases hd : decode s.cfg d with
      | instr i =>
        rw [stepNow_issue hs hh hd, stepNow_issue hs' hh' hd]
        exact exec_ignoresChips i { s with hostQueue := rest }
      | illegalOpcode o =>
        rw [stepNow_illegal hs hh hd, stepNow_illegal hs' hh' hd]
        rfl
      | unknownFrame =>
        rw [stepNow_unknownFrame hs hh hd, stepNow_unknownFrame hs' hh' hd]

theorem step_ignoresChips : IgnoresChips step := by
  intro s
  unfold step
  rw [takeSignal_withoutChips]
  exact stepNow_ignoresChips s.takeSignal

/-- Settles O56: the steps from both states are, but for the chips, the step from the one state without them. -/
theorem chipsDoNotConstrainTheBlock : Obligations.ChipsDoNotConstrainTheBlock := by
  unfold Obligations.ChipsDoNotConstrainTheBlock
  intro s u h
  rw [outcomesAgree_iff]
  calc mapNext State.withoutChips (step s)
      = mapNext State.withoutChips (step s.withoutChips) := (step_ignoresChips s).symm
    _ = mapNext State.withoutChips (step u.withoutChips) := by rw [h]
    _ = mapNext State.withoutChips (step u) := step_ignoresChips u

end Sys2Proof.Machine
end

section
/-!
Scope. Every transfer is of one unheld block and answered by as many bytes (20 R62, R63), which is read off
`exec_takes`; that the block has 3, 4 or 48 bytes (30 R90) is followed through the operations.
-/

namespace Sys2Proof.Machine

/-! ### The shape of a transfer -/

theorem Prepares.rxFor {i : Instr} {s u : State} (h : Prepares i s u) (n : Nat) : u.rxFor n = s.rxFor n := by
  rw [h.same]
  rfl

theorem Prepares.rxAnswers {i : Instr} {s u : State} (h : Prepares i s u) : u.rxAnswers = s.rxAnswers := by
  rw [h.same]

/-- Every event that transfers a frame transfers one unheld block and takes the next answer. -/
theorem Acts.transfer_inv {i : Instr} {u v : State} {line : Line} {f : Frame} {hold : Bool} {rx : List Byte}
    (h : Acts i u (.transfer line f hold rx) v) :
    hold = false ∧ v.rxAnswers = u.rxAnswers.tail ∧ ∃ bytes, f = oneBlock bytes ∧ rx = u.rxFor bytes.length := by
  cases h <;> exact ⟨rfl, rfl, _, rfl, rfl⟩

theorem Takes.transfer_inv {i : Instr} {s t : State} {line : Line} {f : Frame} {hold : Bool} {rx : List Byte}
    (h : Takes i s t) (hlog : t.log = .transfer line f hold rx :: s.log) :
    hold = false ∧ t.rxAnswers = s.rxAnswers.tail ∧ ∃ bytes, f = oneBlock bytes ∧ rx = s.rxFor bytes.length := by
  cases h with
  | stays => exact absurd hlog (by simp)
  | does hu hv =>
    have hevent := hv.log.symm.trans hlog
    rw [hu.log, List.cons.injEq] at hevent
    obtain ⟨rfl, _⟩ := hevent
    obtain ⟨hhold, hanswers, bytes, hf, hrx⟩ := hv.transfer_inv
    exact ⟨hhold, hu.rxAnswers ▸ hanswers, bytes, hf, hu.rxFor _ ▸ hrx⟩

/-! ### The size of a transfer -/

/-- A frame that is transferred has one of the lengths of 30 R90. -/
def Event.Sized : Event → Prop
  | .transfer _ f _ _ => f.bytes.length ∈ [3, 4, 48]
  | _ => True

/-- A next state has made no event after `log`, or one that is of the length of 30 R90 if it is a transfer. -/
def SendsSized (log : List Event) : Outcome → Prop
  | .next t => t.log = log ∨ ∃ e, t.log = e :: log ∧ e.Sized
  | .fault _ | .refused _ => True

theorem SendsSized.of_event {log : List Event} {e : Event} {t : State} (hlog : t.log = e :: log) (he : e.Sized) :
    SendsSized log (.next t) := .inr ⟨e, hlog, he⟩

theorem SendsSized.event {log : List Event} {e : Event} {t : State} (h : SendsSized log (.next t))
    (hlog : t.log = e :: log) : e.Sized := by
  obtain hsame | ⟨_, hlog', he⟩ := h
  · exact absurd (hsame.symm.trans hlog) (by simp)
  · obtain ⟨rfl, _⟩ := List.cons.inj (hlog'.symm.trans hlog)
    exact he

theorem bytes3_length_mem (f : Bytes3) : f.toList.length ∈ [3, 4, 48] := .head _

theorem dataRead_length_mem (cfg : Config) : (dataReadPattern cfg).length ∈ [3, 4, 48] := .tail _ (.head _)

theorem disableAllBytes_length_mem : disableAllBytes.length ∈ [3, 4, 48] := .tail _ (.tail _ (.head _))

theorem running_sendsSized {i : Instr} {s : State} {body : Nat → Point → State → Outcome}
    (h : ∀ k p, SendsSized s.log (body k p s)) : SendsSized s.log (running i s body) := by
  unfold running
  split
  · exact h _ _
  · trivial

theorem completing_sendsSized (i : Instr) (err : Err) (value : Value) (s : State) :
    SendsSized s.log (completing i err value s) := by
  refine running_sendsSized fun _ p => ?_
  cases p with
  | start => exact .of_event rfl trivial
  | _ => trivial

theorem sendFrame_sendsSized {line : Line} {bytes : List Byte} (s : State) (hlen : bytes.length ∈ [3, 4, 48]) :
    SendsSized s.log (sendFrame line bytes s) := by
  unfold sendFrame
  split
  · exact .of_event rfl hlen
  · trivial
  · trivial

section Shared

variable {i : Instr} {k : Nat} (s : State)

theorem startPass_sendsSized (pass : Pass) (todo : List AdcChan) : SendsSized s.log (startPass i k pass todo s) :=
  .of_event rfl (bytes3_length_mem s.cfg.adcModeFrame)

theorem resumePass_sendsSized {atEnd onTimeout : Pass → State → Outcome}
    (hend : ∀ pass (s : State), SendsSized s.log (atEnd pass s))
    (htimeout : ∀ pass (s : State), SendsSized s.log (onTimeout pass s)) (p : Point) :
    SendsSized s.log (resumePass i atEnd onTimeout k p s) := by
  cases p with
  | passNext pass todo =>
    cases todo with
    | nil => exact hend pass { s with adcState := .idle }
    | cons => exact .of_event rfl trivial
  | passPolling | passCaptured => exact .of_event rfl trivial
  | passReady => exact .of_event rfl (dataRead_length_mem s.cfg)
  | passTimedOut pass => exact htimeout pass { s with adcState := .idle }
  | _ => trivial

theorem readDac_sendsSized (c : DacChan) (result : DacCode → Value) (p : Point) :
    SendsSized s.log (readDac i c result k p s) := by
  cases p with
  | start => exact .of_event rfl (bytes3_length_mem s.cfg.dacReadReq)
  | readRequested => exact .of_event rfl (bytes3_length_mem nullFrame)
  | finish => exact .of_event rfl trivial
  | _ => trivial

theorem initNext_sendsSized (todo : List DacChan) : SendsSized s.log (initNext k todo s) := by
  cases todo with
  | nil => exact .of_event rfl trivial
  | cons => exact .of_event rfl (bytes3_length_mem s.cfg.dacInitFrame)

theorem primeFrom_sendsSized {v : Vector Volts 4} {primed : RampRegs → State → Outcome} (regs : RampRegs)
    (todo : List DacChan) (hprimed : ∀ regs, SendsSized s.log (primed regs s)) :
    SendsSized s.log (primeFrom i v primed k regs todo s) := by
  unfold primeFrom
  split
  · exact hprimed _
  · exact .of_event rfl (bytes3_length_mem _)

theorem resumePrime_sendsSized {v : Vector Volts 4} {primed : RampRegs → State → Outcome} (p : Point)
    (hprimed : ∀ regs, SendsSized s.log (primed regs s)) : SendsSized s.log (resumePrime i v primed k p s) := by
  cases p with
  | primeWrote | primeLowered => exact .of_event rfl trivial
  | primeNext => exact primeFrom_sendsSized s _ _ hprimed
  | _ => trivial

theorem stepFrom_sendsSized (plan : Plan) (regs : RampRegs) (todo : List DacChan) :
    SendsSized s.log (stepFrom i plan k regs todo s) := by
  unfold stepFrom
  split
  · exact .of_event rfl trivial
  · exact .of_event rfl (bytes3_length_mem _)

theorem stepBoundary_sendsSized (plan : Plan) (passes : BitVec 32) (regs : RampRegs) :
    SendsSized s.log (stepBoundary i plan passes k regs s) := by
  unfold stepBoundary
  split
  · exact .of_event rfl trivial
  · split
    · exact .of_event rfl trivial
    · exact stepFrom_sendsSized s plan regs _

theorem resumeStep_sendsSized (plan : Plan) (p : Point) : SendsSized s.log (resumeStep i plan k p s) := by
  cases p with
  | stepNext => exact stepFrom_sendsSized s plan _ _
  | stepLowered | stepRaised => exact .of_event rfl trivial
  | _ => trivial

theorem endRampPass_sendsSized (plan : Plan) (pass : Pass) : SendsSized s.log (endRampPass i plan k pass s) := by
  cases pass with
  | reading => trivial
  | ramp regs n =>
    dsimp only [endRampPass]
    rw [← s.countPass_log n]
    split
    · exact .of_event rfl trivial
    · exact stepBoundary_sendsSized (s.countPass n) plan _ _

end Shared

/-! ### Operations -/

theorem execAdcFullReading_sendsSized (s : State) : SendsSized s.log (execAdcFullReading s) := by
  refine running_sendsSized fun k p => ?_
  have hend (pass : Pass) (s : State) : SendsSized s.log (finishReading pass s) := by
    cases pass with
    | reading => exact .of_event rfl trivial
    | ramp => trivial
  have htimeout (pass : Pass) (s : State) : SendsSized s.log (abortReading pass s) := by
    cases pass with
    | reading => exact .of_event rfl trivial
    | ramp => trivial
  cases p with
  | start => exact startPass_sendsSized s _ _
  | _ => exact resumePass_sendsSized s hend htimeout _

theorem execRampSimple_sendsSized (plan : Plan) (s : State) : SendsSized s.log (execRampSimple plan s) := by
  refine running_sendsSized fun k p => ?_
  have hprimed (u : State) (regs : RampRegs) : SendsSized u.log (simplePrimed plan k regs u) :=
    stepBoundary_sendsSized (u.primed .steppingWithoutCapture) plan 0 _
  cases p with
  | start =>
    dsimp only
    split
    · exact .of_event rfl trivial
    · exact primeFrom_sendsSized s.beginRamp _ _ (hprimed s.beginRamp)
  | primeWrote | primeLowered | primeNext => exact resumePrime_sendsSized s _ (hprimed s)
  | slept => exact stepBoundary_sendsSized s plan 0 _
  | _ => exact resumeStep_sendsSized s plan _

theorem execRampBuffered_sendsSized (plan : Plan) (s : State) : SendsSized s.log (execRampBuffered plan s) := by
  refine running_sendsSized fun k p => ?_
  have hprimed (u : State) (regs : RampRegs) : SendsSized u.log (bufferedPrimed plan k regs u) :=
    startPass_sendsSized (u.primed .steppingWithCapture) _ _
  have habort (pass : Pass) (s : State) : SendsSized s.log (abortRamp pass s) := by
    cases pass with
    | reading => trivial
    | ramp => exact .of_event rfl trivial
  cases p with
  | start =>
    dsimp only
    split
    · exact .of_event rfl trivial
    · exact primeFrom_sendsSized s.beginRamp _ _ (hprimed s.beginRamp)
  | primeWrote | primeLowered | primeNext => exact resumePrime_sendsSized s _ (hprimed s)
  | stepNext | stepLowered | stepRaised => exact resumeStep_sendsSized s plan _
  | slept => exact startPass_sendsSized s _ _
  | _ => exact resumePass_sendsSized s (fun pass s => endRampPass_sendsSized s plan pass) habort _

/-- Every frame an instruction transfers has 3, 4 or 48 bytes (30 R90). -/
theorem exec_sendsSized (i : Instr) (s : State) : SendsSized s.log (exec i s) := by
  unfold exec
  cases i with
  | buildFrame =>
    dsimp only [execBuildFrame]
    split
    · split <;> exact completing_sendsSized _ _ _ s
    · trivial
  | adcCfgEncode | adcCfgDecode | adcDisableAllEncode | dacC2v | dacWriteEncode | dacReadDecode | adcCodeDecode
  | readStatus => exact completing_sendsSized _ _ _ s
  | dacV2c =>
    dsimp only [execDacV2c]
    split <;> exact completing_sendsSized _ _ _ s
  | rampPlan =>
    dsimp only [execRampPlan]
    split <;> exact completing_sendsSized _ _ _ s
  | adcConfigureChannel =>
    refine running_sendsSized fun k p => ?_
    cases p with
    | start =>
      dsimp only
      split
      · exact .of_event rfl (bytes3_length_mem _)
      · exact .of_event rfl trivial
    | finish => exact .of_event rfl trivial
    | _ => trivial
  | adcDisableAll =>
    refine running_sendsSized fun k p => ?_
    cases p with
    | start => exact .of_event rfl disableAllBytes_length_mem
    | finish => exact .of_event rfl trivial
    | _ => trivial
  | adcSelectMode =>
    refine running_sendsSized fun k p => ?_
    cases p with
    | start => exact .of_event rfl (bytes3_length_mem s.cfg.adcModeFrame)
    | finish => exact .of_event rfl trivial
    | _ => trivial
  | adcWaitDrdy =>
    refine running_sendsSized fun k p => ?_
    cases p with
    | start | polling | waitTimedOut | finish => exact .of_event rfl trivial
    | _ => trivial
  | adcReadChannel =>
    refine running_sendsSized fun k p => ?_
    cases p with
    | start => exact .of_event rfl (dataRead_length_mem s.cfg)
    | captured => exact .of_event rfl trivial
    | _ => trivial
  | adcFullReading => exact execAdcFullReading_sendsSized s
  | dacInitAll =>
    refine running_sendsSized fun k p => ?_
    cases p with
    | start | initNext => exact initNext_sendsSized s _
    | _ => trivial
  | dacSetVoltage =>
    refine running_sendsSized fun k p => ?_
    cases p with
    | start =>
      dsimp only
      split
      · exact .of_event rfl trivial
      · exact .of_event rfl (bytes3_length_mem _)
    | wrote | lowered | finish => exact .of_event rfl trivial
    | _ => trivial
  | dacReadVoltage | dacReadRegister => exact running_sendsSized fun k p => readDac_sendsSized s _ _ p
  | dacUpdateOutputs =>
    refine running_sendsSized fun k p => ?_
    cases p with
    | start | pulseLow | finish => exact .of_event rfl trivial
    | _ => trivial
  | rampPrime =>
    have hprimed (regs : RampRegs) : SendsSized s.log (.next (s.complete regs.rampErr .unit)) :=
      .of_event rfl trivial
    refine running_sendsSized fun k p => ?_
    cases p with
    | start => exact primeFrom_sendsSized s _ _ hprimed
    | _ => exact resumePrime_sendsSized s _ hprimed
  | rampSimple plan => exact execRampSimple_sendsSized plan s
  | rampBuffered plan => exact execRampBuffered_sendsSized plan s
  | wireAdcChcfg | wireAdcMode | wireDacWrite | wireDacReadRequest | wireDacReadNull | wireDacInit =>
    exact sendFrame_sendsSized s (bytes3_length_mem _)
  | wireAdcDisableAll => exact sendFrame_sendsSized s (by decide)
  | wireAdcDataRead => exact sendFrame_sendsSized s (dataRead_length_mem s.cfg)
  | wirePoison =>
    dsimp only [execWirePoison]
    split
    · exact .inl rfl
    · trivial
    · trivial

/-- Settles O51: the shape of the transfer comes from `exec_takes`, its length from `exec_sendsSized`. -/
theorem transfersAreOneUnheldBlock : Obligations.TransfersAreOneUnheldBlock := by
  unfold Obligations.TransfersAreOneUnheldBlock
  intro i s t line f hold rx h hlog
  obtain ⟨hhold, hanswers, bytes, rfl, rfl⟩ := (exec_takes h).transfer_inv hlog
  have hsized : SendsSized s.log (.next t) := h ▸ exec_sendsSized i s
  exact ⟨hhold, rfl, rfl, hsized.event hlog, rxFor_length _ s, rfl, hanswers⟩

end Sys2Proof.Machine
end

section
/-!
Scope. The decoder and the encoder are inverse to each other (30_encoding.md R90 to R101): the 24-bit patterns as
numbers, the frames with open fields, the operation descriptors; then the illegal opcodes (R105) and the
pseudo-instructions of the command lines (R108).
-/

namespace Sys2Proof.Machine

/-! ### 24-bit patterns as numbers -/

/-- A concatenation as a number: the left part stands above the right one. -/
theorem toNat_append_eq_add {m n : Nat} (x : BitVec m) (y : BitVec n) :
    (x ++ y).toNat = x.toNat * 2 ^ n + y.toNat := by
  rw [BitVec.toNat_append, ← Nat.shiftLeft_add_eq_or_of_lt y.isLt, Nat.shiftLeft_eq]

/-- A field of a word as a number. -/
theorem toNat_extractLsb'_eq_mod {w : Nat} (start len : Nat) (x : BitVec w) :
    (x.extractLsb' start len).toNat = x.toNat / 2 ^ start % 2 ^ len := by
  rw [BitVec.extractLsb'_toNat, Nat.shiftRight_eq_div_pow]

/-- A flag of a word as a number. -/
theorem toNat_getLsbD {w : Nat} (x : BitVec w) (i : Nat) : (x.getLsbD i).toNat = x.toNat / 2 ^ i % 2 :=
  Nat.toNat_testBit ..

theorem natOfBytes3_eq (f : Bytes3) : natOfBytes3 f = f.b0.toNat * 65536 + f.b1.toNat * 256 + f.b2.toNat := by
  simp only [natOfBytes3, toNat_append_eq_add]
  omega

/-- The bytes of a pattern are those of the same number (20 R67). -/
theorem bytesOfPattern_eq_iff {w : BitVec 24} {f : Bytes3} : bytesOfPattern w = f ↔ w.toNat = natOfBytes3 f := by
  obtain ⟨b0, b1, b2⟩ := f
  have hw := w.isLt
  simp only [bytesOfPattern, Bytes3.mk.injEq, ← BitVec.toNat_inj, toNat_extractLsb'_eq_mod, natOfBytes3_eq]
  omega

/-! ### The CHCFG frame (30 R91) -/

/-- The fixed bits of a CHCFG frame, as numbers. -/
theorem isChcfg_iff {f : Bytes3} : isChcfg f = true ↔ f.b0.toNat / 16 = 1 ∧ f.b1.toNat / 4 % 4 = 0 := by
  have h0 := f.b0.isLt
  simp only [isChcfg, Bool.and_eq_true, beq_iff_eq, ← BitVec.toNat_inj, toNat_extractLsb'_eq_mod, BitVec.toNat_ofNat]
  omega

section Chcfg

variable (channel : AdcChan) (enabled : Bool) (setup : BitVec 3) (p : Fin 16) (n : Fin 17)

/-- The pattern `0001 cccc e sss 00 ppppp nnnnn` as a number. -/
theorem chcfgWord_toNat : (chcfgWord channel enabled setup p n).toNat =
    0x100000 + channel.val * 65536 + enabled.toNat * 32768 + setup.toNat * 4096 + p.val * 32 + n.val := by
  simp only [chcfgWord, toNat_append_eq_add, BitVec.toNat_ofNat, BitVec.toNat_ofBool]
  omega

/-- The bytes by the table of R91. -/
theorem bytesOfPattern_chcfgWord : bytesOfPattern (chcfgWord channel enabled setup p n) =
    chcfgBytes channel enabled.toNat setup.toNat p.val n.val := by
  have he := enabled.toNat_lt
  rw [bytesOfPattern_eq_iff, chcfgWord_toNat, natOfBytes3_eq]
  simp only [chcfgBytes, BitVec.toNat_ofNat]
  omega

theorem isChcfg_chcfgWord : isChcfg (bytesOfPattern (chcfgWord channel enabled setup p n)) = true := by
  have he := enabled.toNat_lt
  simp only [isChcfg_iff, bytesOfPattern_chcfgWord, chcfgBytes, BitVec.toNat_ofNat]
  omega

/-- Byte 0 names the channel. -/
theorem chcfgWord_channel :
    ((bytesOfPattern (chcfgWord channel enabled setup p n)).b0.extractLsb' 0 4).toNat = channel.val := by
  simp only [bytesOfPattern_chcfgWord, chcfgBytes, toNat_extractLsb'_eq_mod, BitVec.toNat_ofNat]
  omega

/-- Bytes 1 and 2 are the payload. -/
theorem chcfgWord_payload : (bytesOfPattern (chcfgWord channel enabled setup p n)).b1 ++
    (bytesOfPattern (chcfgWord channel enabled setup p n)).b2 =
      BitVec.ofNat 16 (enabled.toNat * 32768 + setup.toNat * 4096 + p.val * 32 + n.val) := by
  have he := enabled.toNat_lt
  refine BitVec.eq_of_toNat_eq ?_
  simp only [bytesOfPattern_chcfgWord, chcfgBytes, toNat_append_eq_add, BitVec.toNat_ofNat]
  omega

/-- The pattern decodes to its fields. -/
theorem decodeChcfg_chcfgWord : decodeChcfg (bytesOfPattern (chcfgWord channel enabled setup p n)) =
    .instr (.wireAdcChcfg channel enabled setup p n) := by
  have he := enabled.toNat_lt
  have hfixed := isChcfg_chcfgWord channel enabled setup p n
  have hchannel := chcfgWord_channel channel enabled setup p n
  have hpayload := congrArg BitVec.toNat (chcfgWord_payload channel enabled setup p n)
  rw [BitVec.toNat_ofNat] at hpayload
  generalize bytesOfPattern (chcfgWord channel enabled setup p n) = f at hfixed hchannel hpayload ⊢
  have hp : ((f.b1 ++ f.b2).extractLsb' 5 5).toNat = p.val := by
    rw [toNat_extractLsb'_eq_mod]
    omega
  have hn : ((f.b1 ++ f.b2).extractLsb' 0 5).toNat = n.val := by
    rw [toNat_extractLsb'_eq_mod]
    omega
  have hsetup : ((f.b1 ++ f.b2).extractLsb' 12 3).toNat = setup.toNat := by
    rw [toNat_extractLsb'_eq_mod]
    omega
  have henabled : (f.b1 ++ f.b2).getLsbD 15 = enabled := by
    rw [Bool.eq_iff_iff, ← Bool.toNat_eq_one, ← Bool.toNat_eq_one, toNat_getLsbD]
    omega
  unfold decodeChcfg
  rw [dif_pos ⟨hfixed, hp ▸ p.isLt, hn ▸ n.isLt⟩]
  exact congrArg Decoded.instr (Instr.wireAdcChcfg.injEq .. |>.mpr ⟨Fin.ext hchannel, henabled,
    BitVec.eq_of_toNat_eq hsetup, Fin.ext hp, Fin.ext hn⟩)

end Chcfg

/-- Bytes decode as a CHCFG frame exactly when they are the pattern of its fields (R91, R103). -/
theorem decodeChcfg_instr {f : Bytes3} {i : Instr} : decodeChcfg f = .instr i ↔
    ∃ channel enabled setup p n, i = .wireAdcChcfg channel enabled setup p n ∧
      bytesOfPattern (chcfgWord channel enabled setup p n) = f := by
  constructor
  · intro h
    simp only [decodeChcfg] at h
    split at h
    · next hf =>
      cases h
      refine ⟨_, _, _, _, _, rfl, ?_⟩
      obtain ⟨hfixed, hp, hn⟩ := hf
      rw [isChcfg_iff] at hfixed
      rw [bytesOfPattern_eq_iff, chcfgWord_toNat, natOfBytes3_eq]
      simp only [toNat_getLsbD, toNat_extractLsb'_eq_mod, toNat_append_eq_add, BitVec.val_toFin] at hp hn ⊢
      omega
    · cases h
  · rintro ⟨channel, enabled, setup, p, n, rfl, rfl⟩
    exact decodeChcfg_chcfgWord ..

/-! ### The DAC write frame (30 R95) -/

/-- The pattern `WWWW dddd dddddddd dddddddd` as a number. -/
theorem dacWriteWord_toNat (nibble : BitVec 4) (code : DacCode) :
    (dacWriteWord nibble code).toNat = nibble.toNat * 1048576 + code.toNat :=
  toNat_append_eq_add nibble code

/-- The bytes by the table of R95. -/
theorem bytesOfPattern_dacWriteWord (nibble : BitVec 4) (code : DacCode) :
    bytesOfPattern (dacWriteWord nibble code) = dacWriteBytes nibble code := by
  rw [bytesOfPattern_eq_iff, dacWriteWord_toNat, natOfBytes3_eq]
  simp only [dacWriteBytes, BitVec.toNat_ofNat]
  omega

/-- Bytes are a DAC write frame exactly when they are its control nibble and its code. -/
theorem bytesOfPattern_dacWriteWord_iff {nibble : BitVec 4} {code : DacCode} {f : Bytes3} :
    bytesOfPattern (dacWriteWord nibble code) = f ↔ f.b0.extractLsb' 4 4 = nibble ∧ dacCodeOfBytes f = code := by
  rw [bytesOfPattern_eq_iff, dacWriteWord_toNat, natOfBytes3_eq]
  simp only [dacCodeOfBytes, ← BitVec.toNat_inj, toNat_append_eq_add, toNat_extractLsb'_eq_mod]
  omega

/-- Three bytes sent as a DAC write frame decode exactly when they are one (R95). -/
theorem decode_dacWrite_instr {cfg : Config} {c : DacChan} {f : Bytes3} {i : Instr} :
    decode cfg (.frame .dacWrite (.sync c) f.toList) = .instr i ↔
      ∃ code, i = .wireDacWrite c code ∧ bytesOfPattern (dacWriteWord cfg.dacWriteNibble code) = f := by
  simp only [bytesOfPattern_dacWriteWord_iff, decode, decodeFrame, Bytes3.toList]
  split <;> simp_all [eq_comm]

/-! ### Operation descriptors (30 R99 to R101) -/

/-- The opcode of an encoded operation is in the map. -/
theorem opcode_mem_of_encode {cfg : Config} {i : Instr} {opcode : Byte} {operands : Operands}
    {fits : operands.fits opcode = true} (h : encode cfg i = .op opcode operands fits) : opcode ∈ legalOpcodes := by
  cases i <;> cases h <;> decide

/-- An operation descriptor is the encoding of the instruction it decodes to. -/
theorem encode_of_decodeOp (cfg : Config) {opcode : Byte} {operands : Operands} {i : Instr}
    (fits : operands.fits opcode = true) (h : decodeOp opcode operands = some i) :
    encode cfg i = .op opcode operands fits := by
  unfold decodeOp at h
  split at h
  all_goals first | (split at h <;> cases h; rfl) | cases h

/-- A record of the shape of an opcode of the map names an instruction with it. -/
theorem exists_decodeOp {opcode : Byte} {operands : Operands} (fits : operands.fits opcode = true)
    (hop : opcode ∈ legalOpcodes) : ∃ i, decodeOp opcode operands = some i := by
  fin_cases hop
  all_goals cases operands <;> first | exact ⟨_, rfl⟩ | cases fits

/-- An opcode outside the map decodes to itself (R105). -/
theorem decode_illegal {cfg : Config} {opcode : Byte} {operands : Operands} {fits : operands.fits opcode = true}
    (hop : opcode ∉ legalOpcodes) : decode cfg (.op opcode operands fits) = .illegalOpcode opcode := by
  have hnone : decodeOp opcode operands = none :=
    Option.eq_none_iff_forall_ne_some.mpr fun i h => hop (opcode_mem_of_encode (encode_of_decodeOp cfg fits h))
  simp [decode, hnone]

/-! ### The decoder and the encoder -/

/-- Settles O12: operations by computation, constant frames by their bytes, frames with open fields by their fields. -/
theorem decodeEncodeAgree : Obligations.DecodeEncodeAgree := by
  unfold Obligations.DecodeEncodeAgree
  intro cfg i
  cases i with
  | wireAdcChcfg channel enabled setup p n => exact decodeChcfg_instr.mpr ⟨channel, enabled, setup, p, n, rfl, rfl⟩
  | wireDacWrite channel code => exact decode_dacWrite_instr.mpr ⟨code, rfl, rfl⟩
  | wireAdcDisableAll | wireAdcMode | wireAdcDataRead | wireDacReadRequest | wireDacReadNull | wireDacInit
  | wirePoison => simp only [encode, decode, decodeFrame, decodeConstant_self]
  | _ => rfl

/-- A frame is the encoding of the instruction it decodes to. -/
theorem encode_of_decodeFrame {cfg : Config} {kind : FrameKind} {line : Line} {bytes : List Byte} {i : Instr}
    (h : decodeFrame cfg kind line bytes = .instr i) : encode cfg i = .frame kind line bytes := by
  cases line with
  | adcSelect =>
    cases kind with
    | adcChcfg =>
      simp only [decodeFrame] at h
      split at h
      · obtain ⟨_, _, _, _, _, rfl, hf⟩ := decodeChcfg_instr.mp h
        rw [encode, hf]
        rfl
      · cases h
    | adcDisableAll | adcMode | adcDataRead | poison =>
      obtain ⟨rfl, rfl⟩ := decodeConstant_instr.mp h
      rfl
    | dacWrite | dacReadRequest | dacReadNull | dacInit => cases h
  | sync c =>
    cases kind with
    | dacWrite =>
      simp only [decodeFrame] at h
      split at h
      · next b0 b1 b2 =>
        obtain ⟨_, rfl, hf⟩ := decode_dacWrite_instr (f := ⟨b0, b1, b2⟩).mp h
        rw [encode, hf]
        rfl
      · cases h
    | dacReadRequest | dacReadNull | dacInit =>
      obtain ⟨rfl, rfl⟩ := decodeConstant_instr.mp h
      rfl
    | adcChcfg | adcDisableAll | adcMode | adcDataRead | poison => cases h

/-- Settles O13: a descriptor that decodes is the encoding; one of a legal opcode decodes, since its record fits. -/
theorem encodeDecodeAgree : Obligations.EncodeDecodeAgree := by
  unfold Obligations.EncodeDecodeAgree
  refine ⟨fun cfg d i h => ?inverse, fun cfg opcode operands fits => ⟨?legal, ?meaning⟩⟩
  case inverse =>
    cases d with
    | op opcode operands fits => exact encode_of_decodeOp cfg fits (decode_op.mp h)
    | frame kind line bytes => exact encode_of_decodeFrame h
  case legal =>
    rintro ⟨i, h⟩
    exact opcode_mem_of_encode (encode_of_decodeOp cfg fits (decode_op.mp h))
  case meaning =>
    intro hop
    obtain ⟨i, hi⟩ := exists_decodeOp fits hop
    exact ⟨i, decode_op.mpr hi⟩

/-- A control byte with a code's high nibble ORed in, as the bytes of the write frame (R95). -/
theorem dacWriteCtrl_or_0C (cfg : Config) :
    bytesOfPattern (dacWriteWord cfg.dacWriteNibble 0xCCCCD) = ⟨cfg.dacWriteCtrl ||| 0x0C, 0xCC, 0xCD⟩ := by
  rw [Config.dacWriteCtrl]
  generalize cfg.dacWriteNibble = nibble
  revert nibble
  decide

/-- Settles O11: each word by computation, the write frame as the encoding of its instruction (O12). -/
theorem decodeKnownWords : Obligations.DecodeKnownWords := by
  unfold Obligations.DecodeKnownWords
  intro cfg
  refine ⟨rfl, rfl, rfl, ?write, rfl, rfl⟩
  case write => exact decode_dacWrite_instr.mpr ⟨0xCCCCD, rfl, dacWriteCtrl_or_0C cfg⟩

/-! ### Illegal opcodes, pseudo-instructions -/

/-- Settles O10: the next descriptor decodes to an illegal opcode, whose only event is its `Complete`. -/
theorem illegalOpcodeCompletesAtOnce : Obligations.IllegalOpcodeCompletesAtOnce := by
  unfold Obligations.IllegalOpcodeCompletesAtOnce
  intro s opcode operands fits rest hs hq hh hop
  rw [step_of_quiet hq, stepNow_illegal hs hh (decode_illegal hop), State.illegalOperation, State.complete,
    State.record, observe_complete, ← hs]
  rfl

/-- `DACWRITE` with a channel and a voltage token (R108). -/
theorem command_dacWrite (c v : Token) : command "DACWRITE".toList [c, v] =
    do return .dacSetVoltage (← dacChanToken c) (← voltToken v) true := by
  simp [command, Token.is]

/-- `DAC_SET_VOLTAGE` with three tokens (R107). -/
theorem command_dacSetVoltage (c v u : Token) : command "DAC_SET_VOLTAGE".toList [c, v, u] =
    do return .dacSetVoltage (← dacChanToken c) (← voltToken v) (← boolToken u) := by
  simp [command, Token.is]

/-- `GET_DAC` is `DAC_READ_VOLTAGE` of its channel token (R108). -/
theorem command_getDac (c : Token) : command "GET_DAC".toList [c] = (dacChanToken c).map .dacReadVoltage := by
  simp [command, Token.is, oneOperand]

theorem command_dacReadVoltage (c : Token) :
    command "DAC_READ_VOLTAGE".toList [c] = (dacChanToken c).map .dacReadVoltage := by
  simp [command, Token.is, oneOperand]

/-- Settles O15: each mnemonic's operation over its tokens, `1` being the token of true. -/
theorem pseudoInstructionsExpand : Obligations.PseudoInstructionsExpand := by
  unfold Obligations.PseudoInstructionsExpand
  refine ⟨fun c v => ?write, fun c => ?read, fun c v channel volts hc hv => ⟨?writes, ?reads⟩⟩
  case write =>
    have htrue : boolToken "1".toList = some true := by decide
    rw [command_dacWrite, command_dacSetVoltage, htrue]
    rfl
  case read => rw [command_getDac, command_dacReadVoltage]
  case writes =>
    rw [command_dacWrite, hc, hv]
    rfl
  case reads =>
    rw [command_getDac, hc]
    rfl

end Sys2Proof.Machine
end

section
/-!
Scope. The wire frames sent alone (30_encoding.md R91 to R98): each is one transfer, with its effect on the reference
chips (20_memory.md R71, R81, R83).
-/

namespace Sys2Proof.Machine

/-! ### The chips after a transfer -/

/-- The chips after a frame sent alone to the ADC. -/
theorem sendFrame_adcSelect_chips {bytes : List Byte} {s t : State} (h : sendFrame .adcSelect bytes s = .next t) :
    t.chips = s.chips.adcReceive s.cfg bytes := by
  obtain ⟨_, rfl⟩ := sendFrame_next h
  rfl

/-- The DAC's channels after a frame sent alone on one of their lines. -/
theorem sendFrame_sync_chips_dac {c : DacChan} {bytes : List Byte} {s t : State}
    (h : sendFrame (.sync c) bytes s = .next t) :
    t.chips.dac = s.chips.dac.set c (s.chips.dac[c].receive s.cfg bytes) := by
  obtain ⟨_, rfl⟩ := sendFrame_next h
  rfl

/-! ### Configuration frames at the ADC (20 R71) -/

/-- A CHCFG block writes its payload to its channel's register (30 R91). -/
theorem refAdcWrite_chcfgWord (channel : AdcChan) (enabled : Bool) (setup : BitVec 3) (p : Fin 16) (n : Fin 17)
    (regs : Vector (BitVec 16) 16) :
    refAdcWrite (bytesOfPattern (chcfgWord channel enabled setup p n)) regs = regs.set channel
      (BitVec.ofNat 16 (enabled.toNat * 32768 + setup.toNat * 4096 + p.val * 32 + n.val)) := by
  simp only [refAdcWrite, isChcfg_chcfgWord, if_true, chcfgWord_channel, chcfgWord_payload]

theorem refAdcWriteAll_toList (f : Bytes3) (regs : Vector (BitVec 16) 16) :
    refAdcWriteAll f.toList regs = refAdcWrite f regs := rfl

/-- A block of the disable-all frame writes `0x0001` to its channel's register (30 R92). -/
theorem refAdcWrite_disable (i : AdcChan) (regs : Vector (BitVec 16) 16) :
    refAdcWrite ⟨BitVec.ofNat 8 (0x10 + i.val), 0x00, 0x01⟩ regs = regs.set i 0x0001 := by
  have hblock : bytesOfPattern (chcfgWord i false 0 0 1) = ⟨BitVec.ofNat 8 (0x10 + i.val), 0x00, 0x01⟩ :=
    bytesOfPattern_chcfgWord ..
  rw [← hblock, refAdcWrite_chcfgWord]
  rfl

/-- The blocks for these channels write `0x0001` to their registers and leave the others. -/
theorem refAdcWriteAll_disable (is : List AdcChan) (regs : Vector (BitVec 16) 16) (j : AdcChan) :
    (refAdcWriteAll (is.flatMap fun i => [BitVec.ofNat 8 (0x10 + i.val), 0x00, 0x01]) regs)[j] =
      if j ∈ is then 0x0001 else regs[j] := by
  induction is generalizing regs with
  | nil => rfl
  | cons i is ih =>
    rw [List.flatMap_cons, List.cons_append, List.cons_append, List.cons_append, List.nil_append, refAdcWriteAll,
      refAdcWrite_disable, ih]
    by_cases hj : j ∈ is
    · simp [hj]
    · by_cases hij : j = i
      · simp [hij]
      · have hne : i.val ≠ j.val := fun h => hij (Fin.ext h.symm)
        simp [hj, hij, Vector.getElem_set_ne, hne]

theorem mem_allAdcChans (i : AdcChan) : i ∈ allAdcChans := by
  revert i
  decide

/-- The frame the codec writes (42 R155) is the pattern of 30 R92. -/
theorem disableAllBytes_eq_disableAllPattern : disableAllBytes = disableAllPattern := by decide

/-- The disable-all frame writes every channel's register (30 R92). -/
theorem refAdcWriteAll_disableAllPattern (regs : Vector (BitVec 16) 16) :
    refAdcWriteAll disableAllPattern regs = Vector.replicate 16 0x0001 := by
  refine Vector.ext fun j hj => ?_
  have h := refAdcWriteAll_disable allAdcChans regs ⟨j, hj⟩
  rw [if_pos (mem_allAdcChans _)] at h
  rw [Vector.getElem_replicate]
  exact h

/-! ### What the ADC makes of each frame (20 R83) -/

/-- What `FramesDistinct` says of the mode frame and of the DAC's frames. -/
theorem framesDistinct_facts {cfg : Config} (h : cfg.FramesDistinct = true) :
    isChcfg cfg.adcModeFrame = false ∧ cfg.dacInitFrame ≠ nullFrame ∧ cfg.dacReadReq ≠ nullFrame ∧
    cfg.dacWriteNibble ≠ 0 ∧ cfg.dacInitFrame.b0.extractLsb' 4 4 ≠ cfg.dacWriteNibble ∧
    cfg.dacReadReq.b0.extractLsb' 4 4 ≠ cfg.dacWriteNibble := by
  simp only [Config.FramesDistinct, Bool.and_eq_true, Bool.not_eq_true', bne_iff_ne] at h
  obtain ⟨⟨⟨⟨⟨⟨⟨_, hmode⟩, hinit⟩, hreq⟩, _⟩, hnibble⟩, hinitNibble⟩, hreqNibble⟩ := h
  exact ⟨hmode, hinit, hreq, hnibble, hinitNibble, hreqNibble⟩

theorem bytes3_toList_injective {f g : Bytes3} (h : f.toList = g.toList) : f = g := by
  simpa [Bytes3.toList, ← Bytes3.mk.injEq] using h

/-- A frame that is neither the mode frame nor a data-read frame can only write channel registers. -/
theorem adcReceive_config {cfg : Config} {chips : RefChips} {bytes : List Byte}
    (hmode : bytes ≠ cfg.adcModeFrame.toList) (hlength : bytes.length ≠ 4) :
    chips.adcReceive cfg bytes = { chips with adcReg := refAdcWriteAll bytes chips.adcReg } :=
  (if_neg hmode).trans (if_neg hlength)

section AdcFrames

variable (cfg : Config) (chips : RefChips)

/-- A CHCFG frame writes its channel's register, when the mode frame is no CHCFG frame. -/
theorem adcReceive_chcfg (hcfg : cfg.FramesDistinct = true) (channel : AdcChan) (enabled : Bool) (setup : BitVec 3)
    (p : Fin 16) (n : Fin 17) :
    chips.adcReceive cfg (bytesOfPattern (chcfgWord channel enabled setup p n)).toList = { chips with
      adcReg := chips.adcReg.set channel
        (BitVec.ofNat 16 (enabled.toNat * 32768 + setup.toNat * 4096 + p.val * 32 + n.val)) } := by
  have hmode : (bytesOfPattern (chcfgWord channel enabled setup p n)).toList ≠ cfg.adcModeFrame.toList := by
    obtain ⟨hframe, _⟩ := framesDistinct_facts hcfg
    intro h
    rw [← bytes3_toList_injective h, isChcfg_chcfgWord] at hframe
    cases hframe
  rw [adcReceive_config hmode (show (3 : Nat) ≠ 4 by decide), refAdcWriteAll_toList, refAdcWrite_chcfgWord]

/-- The disable-all frame, being no mode frame by its length, writes `0x0001` to every register (30 R92). -/
theorem adcReceive_disableAll :
    chips.adcReceive cfg disableAllPattern = { chips with adcReg := Vector.replicate 16 0x0001 } := by
  have hmode : disableAllPattern ≠ cfg.adcModeFrame.toList := fun h => nomatch congrArg List.length h
  rw [adcReceive_config hmode (by decide), refAdcWriteAll_disableAllPattern]

/-- A channel is enabled when bit 15 of its register is set (30 R91). -/
theorem adcEnabled_eq : chips.adcEnabled = allAdcChans.filter fun i => 32768 ≤ chips.adcReg[i].toNat := by
  simp only [RefChips.adcEnabled]
  congr 1
  funext i
  exact (BitVec.msb_eq_getLsbD_last _).symm.trans (BitVec.msb_eq_decide _)

/-- The mode frame makes one result due for each enabled channel. -/
theorem adcReceive_mode : chips.adcReceive cfg cfg.adcModeFrame.toList =
    { chips with adcDue := allAdcChans.filter fun i => 32768 ≤ chips.adcReg[i].toNat, drdyLow := false } := by
  rw [RefChips.adcReceive, if_pos rfl, adcEnabled_eq]

/-- A data-read frame, being no mode frame by its length, takes the first result due. -/
theorem adcReceive_dataRead : chips.adcReceive cfg (dataReadPattern cfg) =
    { chips with adcDue := chips.adcDue.tail, drdyLow := false } := by
  have hmode : dataReadPattern cfg ≠ cfg.adcModeFrame.toList := fun h => nomatch congrArg List.length h
  exact (if_neg hmode).trans (if_pos rfl)

end AdcFrames

/-- The first event of `ADC_WAIT_DRDY` is a poll (44 R194). -/
theorem exec_adcWaitDrdy_chips {s t : State} (hs : s.IsIdle) (h : exec .adcWaitDrdy s = .next t) :
    t.chips = s.chips.sawDrdy s.levelNow := by
  rw [exec, execAdcWaitDrdy, running_idle hs] at h
  cases h
  rfl

/-- Settles O49: each frame is one transfer by `sendFrame_idle`, and `adcReceive` says what the ADC makes of it. -/
theorem wireAdcFramesAreOneTransfer : Obligations.WireAdcFramesAreOneTransfer := by
  unfold Obligations.WireAdcFramesAreOneTransfer
  intro s hs
  refine ⟨fun ch enabled setup p n => ?chcfg, ?disable, sendFrame_idle hs, sendFrame_idle hs, ?poison, fun t =>
    ⟨fun ch enabled setup p n hcfg h => ?chcfgEffect, fun h => ?disableEffect, fun h => ?modeEffect,
      fun h => ?dataReadEffect, fun h => ?pollEffect⟩⟩
  case chcfg => exact bytesOfPattern_chcfgWord .. ▸ sendFrame_idle hs
  case disable => exact disableAllBytes_eq_disableAllPattern ▸ sendFrame_idle hs
  case poison => simp only [exec, execWirePoison, show s.seqpos = .idle from hs]
  case chcfgEffect => rw [sendFrame_adcSelect_chips h, adcReceive_chcfg _ _ hcfg]
  case disableEffect => rw [sendFrame_adcSelect_chips h, adcReceive_disableAll]
  case modeEffect => rw [sendFrame_adcSelect_chips h, adcReceive_mode]
  case dataReadEffect => rw [sendFrame_adcSelect_chips h, adcReceive_dataRead]
  case pollEffect => rw [exec_adcWaitDrdy_chips hs h, sawDrdy_eq]

/-! ### What the DAC makes of each frame (20 R81) -/

/-- The mask of R81 compares the high nibble. -/
theorem and_F0_eq_dacWriteCtrl_iff {cfg : Config} {b : Byte} :
    b &&& 0xF0 = cfg.dacWriteCtrl ↔ b.extractLsb' 4 4 = cfg.dacWriteNibble := by
  have hmask : b &&& 0xF0 = b.extractLsb' 4 4 ++ 0#4 := by
    revert b
    decide
  rw [hmask, Config.dacWriteCtrl]
  exact BitVec.append_left_inj _

/-- A write frame files its code as pending. -/
theorem receive_dacWriteWord {cfg : Config} (hcfg : cfg.FramesDistinct = true) (ch : RefDacChannel) (code : DacCode) :
    ch.receive cfg (bytesOfPattern (dacWriteWord cfg.dacWriteNibble code)).toList =
      { ch with reg := code, pend := true, readArmed := false } := by
  obtain ⟨hnibble, hcode⟩ := bytesOfPattern_dacWriteWord_iff.mp (rfl : bytesOfPattern _ = bytesOfPattern _)
  generalize bytesOfPattern (dacWriteWord cfg.dacWriteNibble code) = f at hnibble hcode ⊢
  obtain ⟨_, _, _, _, hinit, hreq⟩ := framesDistinct_facts hcfg
  have hneInit : f ≠ cfg.dacInitFrame := fun h => hinit (h ▸ hnibble)
  have hneReq : f ≠ cfg.dacReadReq := fun h => hreq (h ▸ hnibble)
  exact (if_neg hneInit).trans ((if_neg hneReq).trans ((if_pos (and_F0_eq_dacWriteCtrl_iff.mpr hnibble)).trans
    (by rw [hcode])))

/-- The null frame disarms the readback. -/
theorem receive_nullFrame {cfg : Config} (hcfg : cfg.FramesDistinct = true) (ch : RefDacChannel) :
    ch.receive cfg nullFrame.toList = { ch with readArmed := false } := by
  obtain ⟨_, hinit, hreq, hnibble, _⟩ := framesDistinct_facts hcfg
  have hctrl : nullFrame.b0 &&& 0xF0 ≠ cfg.dacWriteCtrl := fun h => hnibble (and_F0_eq_dacWriteCtrl_iff.mp h).symm
  exact (if_neg hinit.symm).trans ((if_neg hreq.symm).trans (if_neg hctrl))

/-- The initialisation frame leaves tristate. -/
theorem receive_dacInitFrame (cfg : Config) (ch : RefDacChannel) :
    ch.receive cfg cfg.dacInitFrame.toList = { ch with tri := false, readArmed := false } := if_pos rfl

/-- Settles O50: each frame is one transfer by `sendFrame_idle`, and `receive` says what its channel makes of it. -/
theorem wireDacFramesReachTheReferenceDac : Obligations.WireDacFramesReachTheReferenceDac := by
  unfold Obligations.WireDacFramesReachTheReferenceDac
  intro s c hs
  refine ⟨fun code => ?write, sendFrame_idle hs, sendFrame_idle hs, sendFrame_idle hs, fun hcfg t =>
    ⟨fun code h => ?writeEffect, fun h => ?requestEffect, fun h => ?nullEffect, fun h => ?initEffect⟩⟩
  case write => exact bytesOfPattern_dacWriteWord .. ▸ sendFrame_idle hs
  case writeEffect => rw [sendFrame_sync_chips_dac h, receive_dacWriteWord hcfg]
  case requestEffect => rw [sendFrame_sync_chips_dac h, receive_dacReadReq hcfg]
  case nullEffect => rw [sendFrame_sync_chips_dac h, receive_nullFrame hcfg]
  case initEffect => rw [sendFrame_sync_chips_dac h, receive_dacInitFrame]

end Sys2Proof.Machine
end

section
/-!
Scope. The operation `BUILD_FRAME` (41_frame_codec.md R130).
-/

namespace Sys2Proof.Machine

/-- R130's condition as a proposition. -/
theorem buildFrameOk_iff {size count : BitVec 32} {data : List Byte} :
    BuildFrameOk size count data = true ↔
      1 ≤ size.toNat ∧ 1 ≤ count.toNat ∧ data.length = size.toNat * count.toNat := by
  simp [BuildFrameOk, and_assoc]

/-- `BUILD_FRAME` with sizes that fit its data, issued to an idle block: the error above the capacity, else the frame
of the data. -/
theorem exec_buildFrame_idle {size count : BitVec 32} {data : List Byte} {s : State} (hs : s.seqpos = .idle)
    (hok : BuildFrameOk size count data = true) :
    exec (.buildFrame size count data) s = .next (
      if 64 < size.toNat * count.toNat then s.complete .frameCapacityExceeded .unit
      else s.complete .none (.frame ⟨size.toNat, count.toNat, data⟩)) := by
  rw [exec, execBuildFrame, if_pos hok, completing_idle hs, completing_idle hs, writeBytes_frame]
  exact (apply_ite Host.Outcome.next ..).symm

/-- Settles O16: a descriptor that breaks `BuildFrameOk` is refused by `exec_illFormed`, and one that keeps it
completes by `exec_buildFrame_idle`. -/
theorem buildFrameChecksCapacity : Obligations.BuildFrameChecksCapacity := by
  unfold Obligations.BuildFrameChecksCapacity
  intro s size count data
  refine ⟨rfl, fun hbad => ?refused, fun hs hsize hcount hdata => ?completes⟩
  case refused =>
    have hno : BuildFrameOk size count data = false := eq_false_of_ne_true (hbad ∘ buildFrameOk_iff.mp)
    exact exec_illFormed s hno
  case completes => exact exec_buildFrame_idle hs (buildFrameOk_iff.mpr ⟨hsize, hcount, hdata⟩)

end Sys2Proof.Machine
end

section
/-!
Scope. Channel configurations of the ADC (42_adc_channel_config.md R150 to R156): what validation answers, the bytes
of a packed configuration, the fields of a decoded frame, and the three operations of the codec.
-/

namespace Sys2Proof.Machine

/-! ### Validation (42 R150, R151) -/

/-- R150's pairs as a proposition. -/
theorem pairOk_iff {p n : Int} : pairOk p n = true ↔ PairAccepted p n := by
  simp [pairOk, PairAccepted]

/-- An accepted pair has `n` in range, and `p` too unless `n` is the common-mode reference (R156). -/
theorem PairAccepted.bounds {p n : Int} (h : PairAccepted p n) : (0 ≤ n ∧ n ≤ 16) ∧ (n = 16 ∨ 0 ≤ p ∧ p ≤ 15) := by
  obtain rfl | ⟨k, hk, hpair⟩ := h <;> omega

/-- What validation can answer: the error of the check that fails first, or none for a valid configuration; the fifth
check never fails after the third (R156). -/
theorem validate_cases (state setup p n : Int) :
    ConfigError state setup p n (validate state setup p n) ∨
    (validate state setup p n = .none ∧ ConfigValid state setup p n) := by
  unfold validate
  split_ifs with hstate hsetup hpair hp hn
  · exact .inl (.inr (.inl ⟨rfl, hstate, by omega⟩))
  · exact .inl (.inr (.inr (.inr ⟨rfl, hstate, by omega, pairOk_iff.mp hpair, by omega⟩)))
  · have hbounds := (pairOk_iff.mp hpair).bounds
    omega
  · exact .inr ⟨rfl, hstate, by omega, pairOk_iff.mp hpair, by omega⟩
  · exact .inl (.inr (.inr (.inl ⟨rfl, hstate, by omega, pairOk_iff.not.mp hpair⟩)))
  · exact .inl (.inl ⟨rfl, hstate⟩)

/-- The conditions of the errors and of validity exclude each other, so each determines the answer. -/
theorem validate_eq_iff {state setup p n : Int} {e : Err} : validate state setup p n = e ↔
    ConfigError state setup p n e ∨ (e = .none ∧ ConfigValid state setup p n) := by
  constructor
  · rintro rfl
    exact validate_cases ..
  · intro he
    have hv := validate_cases state setup p n
    generalize validate state setup p n = v at hv ⊢
    unfold ConfigError ConfigValid at he hv
    grind

theorem validate_eq_none_iff {state setup p n : Int} :
    validate state setup p n = .none ↔ ConfigValid state setup p n := by
  simp [validate_eq_iff, ConfigError]

/-- The check of `n` never fails after that of the pair (R156). -/
theorem validate_ne_invalidInput2 (state setup p n : Int) : validate state setup p n ≠ .invalidInput2 := by
  simp [validate_eq_iff, ConfigError]

/-- The check of `p` fails after that of the pair for the common-mode reference only (R156). -/
theorem validate_eq_invalidInput1_iff (state setup p n : Int) : validate state setup p n = .invalidInput1 ↔
    (state = 0 ∨ state = 1) ∧ (0 ≤ setup ∧ setup ≤ 7) ∧ n = 16 ∧ ¬(0 ≤ p ∧ p ≤ 15) := by
  have hpair : PairAccepted p n ∧ ¬(0 ≤ p ∧ p ≤ 15) ↔ n = 16 ∧ ¬(0 ≤ p ∧ p ≤ 15) :=
    and_congr_left fun hp => ⟨fun h => h.bounds.2.resolve_right hp, .inl⟩
  simp only [validate_eq_iff, ConfigError, reduceCtorEq, false_and, true_and, or_false, false_or, hpair]

/-- A valid configuration lies in the ranges of a CHCFG frame's fields. -/
theorem ConfigValid.bounds {state setup p n : Int} (h : ConfigValid state setup p n) :
    (0 ≤ state ∧ state ≤ 1) ∧ (0 ≤ setup ∧ setup ≤ 7) ∧ (0 ≤ p ∧ p ≤ 15) ∧ (0 ≤ n ∧ n ≤ 16) := by
  obtain ⟨hstate, hsetup, hpair, hp⟩ := h
  exact ⟨by omega, hsetup, hp, hpair.bounds.1⟩

/-! ### Packing (42 R152) -/

/-- ORing a value below the shift into a shifted one that fits adds them. -/
theorem toNat_shiftLeft_or {w i : Nat} {x y : BitVec w} (hx : x.toNat * 2 ^ i < 2 ^ w) (hy : y.toNat < 2 ^ i) :
    (x <<< i ||| y).toNat = x.toNat * 2 ^ i + y.toNat := by
  rw [BitVec.toNat_or, BitVec.toNat_shiftLeft, Nat.shiftLeft_eq, Nat.mod_eq_of_lt hx, ← Nat.shiftLeft_eq,
    Nat.shiftLeft_add_eq_or_of_lt hy]

/-- The payload of R152 as a number. -/
theorem payload_toNat {e u p n : BitVec 16} (he : e.toNat ≤ 1) (hu : u.toNat ≤ 7) (hp : p.toNat ≤ 15)
    (hn : n.toNat ≤ 16) : (e <<< 15 ||| u <<< 12 ||| 0b00 <<< 10 ||| p <<< 5 ||| n).toNat =
      e.toNat * 32768 + u.toNat * 4096 + p.toNat * 32 + n.toNat := by
  have hinputs : (p <<< 5 ||| n).toNat = p.toNat * 32 + n.toNat := toNat_shiftLeft_or (by omega) (by omega)
  have hsetup : (u <<< 12 ||| (p <<< 5 ||| n)).toNat = u.toNat * 4096 + (p.toNat * 32 + n.toNat) :=
    hinputs ▸ toNat_shiftLeft_or (by omega) (by omega)
  rw [show ((0b00 <<< 10 : Nat) : BitVec 16) = 0#16 from rfl, BitVec.or_zero, BitVec.or_assoc, BitVec.or_assoc,
    toNat_shiftLeft_or (by omega) (by omega), hsetup]
  omega

/-- A valid configuration is packed into the bytes of the table of 30 R91. -/
theorem pack_eq_chcfgBytes (ch : AdcChan) {state setup p n : Int} (h : ConfigValid state setup p n) :
    pack ch state setup p n = chcfgBytes ch state.toNat setup.toNat p.toNat n.toNat := by
  obtain ⟨hstate, hsetup, hp, hn⟩ := h.bounds
  have htail : (if n = 16 then 0b10000 else BitVec.ofInt 16 n) = BitVec.ofInt 16 n := by
    split
    next hcom => rw [hcom]; rfl
    next => rfl
  have hpayload := payload_toNat (e := .ofInt 16 state) (u := .ofInt 16 setup) (p := .ofInt 16 p) (n := .ofInt 16 n)
  simp only [BitVec.toNat_ofInt] at hpayload
  simp only [pack, htail, chcfgBytes, Bytes3.mk.injEq, ← BitVec.toNat_inj, toNat_extractLsb'_eq_mod,
    BitVec.toNat_ofNat, Config.adcChcfgBase, true_and]
  omega

/-- The bytes of a packed valid configuration as numbers. -/
theorem pack_toNat (ch : AdcChan) {state setup p n : Int} (h : ConfigValid state setup p n) :
    (pack ch state setup p n).b0.toNat = 16 + ch.val ∧
    ((pack ch state setup p n).b1.toNat : Int) = state * 128 + setup * 16 + p / 8 ∧
    ((pack ch state setup p n).b2.toNat : Int) = p % 8 * 32 + n := by
  obtain ⟨hstate, hsetup, hp, hn⟩ := h.bounds
  simp only [pack_eq_chcfgBytes ch h, chcfgBytes, BitVec.toNat_ofNat]
  omega

/-! ### Decoding (42 R154) -/

section Unpack

variable (f : Bytes3)

theorem unpack_channel : (unpack f).channel = (f.b0.toNat : Int) - 16 := rfl

theorem unpack_enabled_iff : (unpack f).enabled = true ↔ 128 ≤ f.b1.toNat := by
  have h1 := f.b1.isLt
  have h2 := f.b2.isLt
  rw [unpack, ← Bool.toNat_eq_one, toNat_getLsbD, toNat_append_eq_add]
  omega

theorem unpack_setup_toNat : (unpack f).setup.toNat = f.b1.toNat / 16 % 8 := by
  rw [unpack, toNat_extractLsb'_eq_mod, toNat_append_eq_add]
  omega

theorem unpack_inputPositive_toNat : (unpack f).inputPositive.toNat = f.b1.toNat % 4 * 8 + f.b2.toNat / 32 := by
  rw [unpack, toNat_extractLsb'_eq_mod, toNat_append_eq_add]
  omega

theorem unpack_inputNegative_toNat : (unpack f).inputNegative.toNat = f.b2.toNat % 32 := by
  rw [unpack, toNat_extractLsb'_eq_mod, toNat_append_eq_add]
  omega

theorem unpack_valid_iff : (unpack f).valid = true ↔
    0x10 ≤ f.b0.toNat ∧ f.b0.toNat ≤ 0x1F ∧ f.b1.toNat / 4 % 4 = 0 ∧ (unpack f).inputPositive.toNat ≤ 15 ∧
    (unpack f).inputNegative.toNat ≤ 16 ∧
    PairAccepted (unpack f).inputPositive.toNat (unpack f).inputNegative.toNat := by
  have hzero : (f.b1 ++ f.b2).extractLsb' 10 2 = 0 ↔ f.b1.toNat / 4 % 4 = 0 := by
    rw [← BitVec.toNat_inj, toNat_extractLsb'_eq_mod, toNat_append_eq_add,
      show (0 : BitVec 2).toNat = 0 from rfl]
    omega
  simp only [unpack, Bool.and_eq_true, decide_eq_true_eq, beq_iff_eq, hzero, pairOk_iff, and_assoc]

end Unpack

/-- A valid record names a valid configuration that packs to its frame. -/
theorem exists_pack_of_unpack_valid {f : Bytes3} (h : (unpack f).valid = true) :
    ∃ (ch : AdcChan) (state setup p n : Int), ConfigValid state setup p n ∧ f = pack ch state setup p n := by
  obtain ⟨hlow, hhigh, hzero, hp, hn, hpair⟩ := (unpack_valid_iff f).mp h
  rw [unpack_inputPositive_toNat] at hp hpair
  rw [unpack_inputNegative_toNat] at hn hpair
  obtain ⟨b0, b1, b2⟩ := f
  dsimp only at hlow hhigh hzero hp hn hpair
  have hvalid : ConfigValid (b1.toNat / 128 : Nat) (b1.toNat / 16 % 8 : Nat) _ _ :=
    ⟨by omega, by omega, hpair, by omega⟩
  refine ⟨⟨b0.toNat - 16, by omega⟩, _, _, _, _, hvalid, ?_⟩
  rw [pack_eq_chcfgBytes _ hvalid]
  simp only [chcfgBytes, Int.toNat_natCast, Bytes3.mk.injEq, ← BitVec.toNat_inj, BitVec.toNat_ofNat]
  omega

/-- Decoding a packed valid configuration returns it (R156). -/
theorem unpack_pack (ch : AdcChan) {state setup p n : Int} (h : ConfigValid state setup p n) :
    (unpack (pack ch state setup p n)).valid = true ∧ (unpack (pack ch state setup p n)).channel = ch.val ∧
    ((unpack (pack ch state setup p n)).enabled = true ↔ state = 1) ∧
    ((unpack (pack ch state setup p n)).setup.toNat : Int) = setup ∧
    ((unpack (pack ch state setup p n)).inputPositive.toNat : Int) = p ∧
    ((unpack (pack ch state setup p n)).inputNegative.toNat : Int) = n := by
  obtain ⟨hb0, hb1, hb2⟩ := pack_toNat ch h
  obtain ⟨hstate, hsetup, hp, hn⟩ := h.bounds
  obtain ⟨_, _, hpair, _⟩ := h
  generalize pack ch state setup p n = f at hb0 hb1 hb2 ⊢
  have hpositive : ((unpack f).inputPositive.toNat : Int) = p := by
    rw [unpack_inputPositive_toNat]
    omega
  have hnegative : ((unpack f).inputNegative.toNat : Int) = n := by
    rw [unpack_inputNegative_toNat]
    omega
  refine ⟨(unpack_valid_iff f).mpr ⟨by omega, by omega, by omega, by omega, by omega, ?_⟩, ?_, ?_, ?_, hpositive,
    hnegative⟩
  · rwa [hpositive, hnegative]
  · rw [unpack_channel]
    omega
  · rw [unpack_enabled_iff]
    omega
  · rw [unpack_setup_toNat]
    omega

/-- Block `i` of the disable-all frame (30 R92). -/
theorem disableAllPattern_block (i : AdcChan) :
    disableAllPattern.getD (3 * i.val) 0 = BitVec.ofNat 8 (0x10 + i.val) ∧
    disableAllPattern.getD (3 * i.val + 1) 0 = 0x00 ∧ disableAllPattern.getD (3 * i.val + 2) 0 = 0x01 := by
  revert i
  decide

/-- A block of the disable-all frame decodes as disabled (R156). -/
theorem unpack_disableAllBytes_enabled (i : AdcChan) :
    (unpack ⟨disableAllBytes.getD (3 * i.val) 0, disableAllBytes.getD (3 * i.val + 1) 0,
      disableAllBytes.getD (3 * i.val + 2) 0⟩).enabled = false := by
  obtain ⟨hb0, hb1, hb2⟩ := disableAllPattern_block i
  rw [disableAllBytes_eq_disableAllPattern, hb0, hb1, hb2, ← Bool.not_eq_true, unpack_enabled_iff]
  show ¬128 ≤ (0x00 : Byte).toNat
  decide

/-! ### The operations of the codec, issued to an idle block (R153 to R155) -/

/-- A configuration that fails a check completes with its error and the error frame. -/
theorem exec_adcCfgEncode_error {s : State} (hs : s.seqpos = .idle) (ch : AdcChan) {state setup p n : BitVec 32}
    {e : Err} (h : ConfigError state.toInt setup.toInt p.toInt n.toInt e) :
    exec (.adcCfgEncode ch state setup p n) s = .next (s.complete e (.bytes3 poisonFrame)) := by
  have hne : e ≠ .none := by
    rintro rfl
    simp [ConfigError] at h
  rw [exec, execAdcCfgEncode, completing_idle hs, validate_eq_iff.mpr (.inl h), if_neg hne]

/-- A valid configuration completes with its packed frame. -/
theorem exec_adcCfgEncode_valid {s : State} (hs : s.seqpos = .idle) (ch : AdcChan) {state setup p n : BitVec 32}
    (h : ConfigValid state.toInt setup.toInt p.toInt n.toInt) :
    exec (.adcCfgEncode ch state setup p n) s =
      .next (s.complete .none (.bytes3 (pack ch state.toInt setup.toInt p.toInt n.toInt))) := by
  rw [exec, execAdcCfgEncode, completing_idle hs, validate_eq_none_iff.mpr h, if_pos rfl]

theorem exec_adcCfgDecode_idle {s : State} (hs : s.seqpos = .idle) (f : Bytes3) :
    exec (.adcCfgDecode f) s = .next (s.complete .none (.channelConfig (unpack f))) :=
  completing_idle hs

/-- Settles O17: `validate_eq_iff` says which check answers, and a valid configuration is packed by
`pack_eq_chcfgBytes`. -/
theorem adcCfgEncodeChecksInOrder : Obligations.AdcCfgEncodeChecksInOrder := by
  unfold Obligations.AdcCfgEncodeChecksInOrder
  intro s ch state setup p n hs
  refine ⟨rfl, fun e he => exec_adcCfgEncode_error hs ch he, fun hvalid => ?_⟩
  rw [exec_adcCfgEncode_valid hs ch hvalid, pack_eq_chcfgBytes ch hvalid]

/-- Settles O18: the fields one by one, and the two readings of `valid` by `unpack_valid_iff` and by
`exists_pack_of_unpack_valid` with its converse `unpack_pack`. -/
theorem adcCfgDecodeReadsFields : Obligations.AdcCfgDecodeReadsFields := by
  unfold Obligations.AdcCfgDecodeReadsFields
  intro s f hs
  have hpacked : (unpack f).valid = true ↔
      ∃ (ch : AdcChan) (state setup p n : Int), ConfigValid state setup p n ∧ f = pack ch state setup p n := by
    refine ⟨exists_pack_of_unpack_valid, ?_⟩
    rintro ⟨ch, state, setup, p, n, hvalid, rfl⟩
    exact (unpack_pack ch hvalid).1
  exact ⟨rfl, unpack f, exec_adcCfgDecode_idle hs f, unpack_channel f, unpack_enabled_iff f, unpack_setup_toNat f,
    unpack_inputPositive_toNat f, unpack_inputNegative_toNat f, unpack_valid_iff f, hpacked⟩

/-- Settles O20: (a) and (b) from what `validate` answers, (c) by `unpack_pack`, (d) by
`unpack_disableAllBytes_enabled`. -/
theorem configCodecFacts : Obligations.ConfigCodecFacts := by
  unfold Obligations.ConfigCodecFacts
  refine ⟨validate_ne_invalidInput2, validate_eq_invalidInput1_iff, ?decodePack, unpack_disableAllBytes_enabled⟩
  case decodePack =>
    intro s ch state setup p n hs hv
    exact ⟨_, exec_adcCfgDecode_idle hs _, unpack_pack ch (validate_eq_none_iff.mp hv)⟩

/-- Settles O19: the bytes written are the pattern of 30 R92 by `disableAllBytes_eq_disableAllPattern`. -/
theorem adcDisableAllEncodeIsConstant : Obligations.AdcDisableAllEncodeIsConstant := by
  unfold Obligations.AdcDisableAllEncodeIsConstant
  refine ⟨rfl, fun s hs => ?_⟩
  rw [exec, execAdcDisableAllEncode, completing_idle hs, disableAllBytes_eq_disableAllPattern]
  rfl

end Sys2Proof.Machine
end

section
/-!
Scope. The DAC code converter (43_dac_code_converter.md R170 to R177): the three roundings, the conversion between
voltages and signed codes over the step of each branch, the bytes of a write frame and of a read response, and the four
operations.
-/

namespace Sys2Proof.Machine

/-! ### The three roundings (R171) -/

theorem roundQ_halfAwayFromZero (x : Rat) :
    roundQ .halfAwayFromZero x = if 0 ≤ x then ⌊x + 1 / 2⌋ else -⌊-x + 1 / 2⌋ := rfl

theorem roundQ_towardZero (x : Rat) : roundQ .towardZero x = if 0 ≤ x then ⌊x⌋ else -⌊-x⌋ := rfl

theorem roundQ_halfToEven (x : Rat) : roundQ .halfToEven x =
    if x - ⌊x⌋ < 1 / 2 then ⌊x⌋ else if 1 / 2 < x - ⌊x⌋ then ⌊x⌋ + 1
    else if ⌊x⌋ % 2 = 0 then ⌊x⌋ else ⌊x⌋ + 1 := rfl

/-- `HalfToEven` answers an integer closer than a half, or an even one at a half. -/
theorem roundQ_halfToEven_near (x : Rat) : |(roundQ .halfToEven x : Rat) - x| < 1 / 2 ∨
    |(roundQ .halfToEven x : Rat) - x| = 1 / 2 ∧ Even (roundQ .halfToEven x) := by
  have hle : (⌊x⌋ : Rat) ≤ x := Int.floor_le x
  have hlt : x < ⌊x⌋ + 1 := Int.lt_floor_add_one x
  rw [roundQ_halfToEven]
  split_ifs with hbelow habove heven
  · left
    rw [abs_lt]
    constructor <;> linarith
  · left
    push_cast
    rw [abs_lt]
    constructor <;> linarith
  all_goals
    have hhalf : x = ⌊x⌋ + 1 / 2 := by linarith
    right
  · exact ⟨by rw [abs_sub_comm, abs_of_nonneg] <;> linarith, Int.even_iff.mpr heven⟩
  · push_cast
    exact ⟨by rw [abs_of_nonneg] <;> linarith, by rw [Int.even_iff]; omega⟩

/-- `HalfAwayFromZero` is Mathlib's `round` of the magnitude, with the sign put back. -/
theorem roundQ_halfAwayFromZero_near (x : Rat) : |(roundQ .halfAwayFromZero x : Rat) - x| ≤ 1 / 2 := by
  rw [roundQ_halfAwayFromZero]
  split
  · rw [← round_eq, abs_sub_comm]
    exact abs_sub_round x
  · have hround := abs_sub_round (-x)
    rw [← round_eq, Int.cast_neg, abs_sub_comm, sub_neg_eq_add, add_comm]
    rwa [← neg_add', abs_neg, add_comm] at hround

theorem roundQ_towardZero_near (x : Rat) : |(roundQ .towardZero x : Rat) - x| < 1 := by
  rw [roundQ_towardZero]
  split
  · have hle := Int.floor_le x
    have hlt := Int.lt_floor_add_one x
    rw [abs_lt]
    constructor <;> linarith
  · have hle := Int.floor_le (-x)
    have hlt := Int.lt_floor_add_one (-x)
    push_cast
    rw [abs_lt]
    constructor <;> linarith

/-- The two nearest modes err by at most a half. -/
theorem abs_roundQ_sub_le_half {mode : Rounding} (hmode : mode ≠ .towardZero) (x : Rat) :
    |(roundQ mode x : Rat) - x| ≤ 1 / 2 := by
  cases mode with
  | halfAwayFromZero => exact roundQ_halfAwayFromZero_near x
  | halfToEven => exact (roundQ_halfToEven_near x).elim le_of_lt fun ⟨hhalf, _⟩ => hhalf.le
  | towardZero => exact absurd rfl hmode

/-- Every mode errs by less than one. -/
theorem abs_roundQ_sub_lt_one (mode : Rounding) (x : Rat) : |(roundQ mode x : Rat) - x| < 1 := by
  by_cases hmode : mode = .towardZero
  · exact hmode ▸ roundQ_towardZero_near x
  · exact (abs_roundQ_sub_le_half hmode x).trans_lt (by norm_num)

/-- No rounding passes an integer. -/
theorem le_roundQ (mode : Rounding) {x : Rat} {n : Int} (h : n ≤ x) : n ≤ roundQ mode x := by
  obtain ⟨hlow, -⟩ := abs_lt.mp (abs_roundQ_sub_lt_one mode x)
  have hlt : (n : Rat) < roundQ mode x + 1 := by linarith
  exact Int.lt_add_one_iff.mp (by exact_mod_cast hlt)

theorem roundQ_le (mode : Rounding) {x : Rat} {n : Int} (h : x ≤ n) : roundQ mode x ≤ n := by
  obtain ⟨-, hhigh⟩ := abs_lt.mp (abs_roundQ_sub_lt_one mode x)
  have hlt : (roundQ mode x : Rat) < n + 1 := by linarith
  exact Int.lt_add_one_iff.mp (by exact_mod_cast hlt)

theorem roundQ_intCast (mode : Rounding) (n : Int) : roundQ mode n = n :=
  le_antisymm (roundQ_le mode le_rfl) (le_roundQ mode le_rfl)

/-! ### The step of a branch (R170, R172) -/

/-- One step of the branch of `v`, in volts: the branches differ in their divisors. -/
def branchStep (v : Rat) : Volts := if 0 ≤ v then 10 / 524287 else 10 / 524288

theorem branchStep_of_nonneg {v : Rat} (h : 0 ≤ v) : branchStep v = 10 / 524287 := if_pos h

theorem branchStep_of_neg {v : Rat} (h : v < 0) : branchStep v = 10 / 524288 := if_neg h.not_ge

theorem branchStep_pos (v : Rat) : 0 < branchStep v := by
  unfold branchStep
  split <;> norm_num

theorem branchStep_le (v : Rat) : branchStep v ≤ 10 / 524287 := by
  unfold branchStep
  split <;> norm_num

/-- A number of steps of its own branch lies on that branch. -/
theorem branchStep_mul_branchStep (x : Rat) : branchStep (x * branchStep x) = branchStep x := by
  obtain hx | hx := lt_or_ge x 0
  · rw [branchStep_of_neg hx, branchStep_of_neg (by linarith)]
  · rw [branchStep_of_nonneg hx, branchStep_of_nonneg (by linarith)]

/-- A voltage in range is a number of steps in the range of the signed code. -/
theorem div_branchStep_bounds {v : Volts} (h : |v| ≤ 10) :
    ((-524288 : Int) : Rat) ≤ v / branchStep v ∧ v / branchStep v ≤ (524287 : Int) := by
  obtain ⟨hlow, hhigh⟩ := abs_le.mp h
  rw [le_div_iff₀ (branchStep_pos v), div_le_iff₀ (branchStep_pos v)]
  push_cast
  obtain hv | hv := lt_or_ge v 0
  · rw [branchStep_of_neg hv]
    constructor <;> linarith
  · rw [branchStep_of_nonneg hv]
    constructor <;> linarith

/-! ### Codes as signed numbers of steps (R170, R172) -/

/-- `codeOfVolts`, with the numerals of R8 in place of their names. -/
theorem codeOfVolts_eq (mode : Rounding) (v : Volts) : codeOfVolts mode v =
    if v < 0 then BitVec.ofInt 20 (roundQ mode (v * 524288 / 10) + 1048576)
    else BitVec.ofInt 20 (roundQ mode (v * 524287 / 10)) := rfl

/-- The code of a voltage is the rounded number of steps, reduced to 20 bits: the bias is a multiple of 2^20. -/
theorem codeOfVolts_eq_ofInt (mode : Rounding) (v : Volts) :
    codeOfVolts mode v = BitVec.ofInt 20 (roundQ mode (v / branchStep v)) := by
  rw [codeOfVolts_eq]
  split
  case isTrue hneg =>
    rw [branchStep_of_neg hneg, div_div_eq_mul_div, ← BitVec.toInt_inj, BitVec.toInt_ofInt, BitVec.toInt_ofInt]
    exact Int.add_bmod_right _ _
  case isFalse hpos => rw [branchStep_of_nonneg (not_lt.mp hpos), div_div_eq_mul_div]

/-- In range, the signed code of a voltage is the rounded number of steps. -/
theorem codeOfVolts_toInt (mode : Rounding) {v : Volts} (h : |v| ≤ 10) :
    (codeOfVolts mode v).toInt = roundQ mode (v / branchStep v) := by
  obtain ⟨hlow, hhigh⟩ := div_branchStep_bounds h
  have hround_low := le_roundQ mode hlow
  have hround_high := roundQ_le mode hhigh
  rw [codeOfVolts_eq_ofInt]
  exact BitVec.toInt_ofInt_eq_self (by decide) (by omega) (by omega)

/-- The voltage of a code is its signed number of steps. -/
theorem codeToVoltage_eq_mul_branchStep (code : DacCode) :
    codeToVoltage code = code.toInt * branchStep code.toInt := by
  have hlt := code.isLt
  have hint := code.toInt_eq_toNat_cond
  simp only [codeToVoltage, Config.fullScale, Config.dacPosDiv, Config.dacNegDiv, Config.dacBias]
  split
  case isTrue hpos =>
    have hcode : code.toInt = code.toNat := by omega
    rw [hcode, branchStep_of_nonneg (by positivity)]
    push_cast
    ring
  case isFalse hneg =>
    have hcode : code.toInt = (code.toNat : Int) - 1048576 := by omega
    have hsign : (code.toInt : Rat) < 0 := by exact_mod_cast (by omega : code.toInt < 0)
    rw [branchStep_of_neg hsign, hcode]
    push_cast
    ring

/-- The two branches of the voltage of a code (R172). -/
theorem codeToVoltage_eq_ite (code : DacCode) : codeToVoltage code =
    if 0 ≤ code.toInt then (code.toInt : Rat) * 10 / 524287 else (code.toInt : Rat) * 10 / 524288 := by
  rw [codeToVoltage_eq_mul_branchStep, branchStep, if_congr Int.cast_nonneg_iff rfl rfl, mul_ite, mul_div_assoc,
    mul_div_assoc]

theorem abs_codeToVoltage_le (code : DacCode) : |codeToVoltage code| ≤ 10 := by
  have hlow : (-524288 : Rat) ≤ code.toInt := by exact_mod_cast code.le_toInt
  have hhigh : (code.toInt : Rat) ≤ 524287 := by exact_mod_cast Int.le_of_lt_add_one code.toInt_lt
  rw [codeToVoltage_eq_ite, abs_le]
  split
  case isTrue hpos =>
    have hsign : (0 : Rat) ≤ code.toInt := by exact_mod_cast hpos
    constructor <;> linarith
  case isFalse hneg =>
    have hsign : (code.toInt : Rat) < 0 := by exact_mod_cast not_le.mp hneg
    constructor <;> linarith

/-! ### There and back (R177) -/

theorem overrange_iff {v : Volts} : overrange v = true ↔ 10 < |v| := by
  rw [overrange, Bool.or_eq_true, decide_eq_true_iff, decide_eq_true_iff, lt_abs, lt_neg, or_comm]
  rfl

theorem voltageToCode_of_le {v : Volts} (h : |v| ≤ 10) (mode : Rounding) :
    voltageToCode mode v = some (codeOfVolts mode v) :=
  if_neg fun hover => h.not_gt (overrange_iff.mp hover)

theorem voltageToCode_of_lt {v : Volts} (h : 10 < |v|) (mode : Rounding) : voltageToCode mode v = none :=
  if_pos (overrange_iff.mpr h)

/-- Conversion to a code and back puts the rounded number of steps for the exact one. A voltage below zero may round to
the code 0 of the other branch, where the step does not matter. -/
theorem codeToVoltage_codeOfVolts (mode : Rounding) {v : Volts} (h : |v| ≤ 10) :
    codeToVoltage (codeOfVolts mode v) = roundQ mode (v / branchStep v) * branchStep v := by
  rw [codeToVoltage_eq_mul_branchStep, codeOfVolts_toInt mode h]
  obtain hv | hv := lt_or_ge v 0
  · have hle : roundQ mode (v / branchStep v) ≤ 0 :=
      roundQ_le mode (by exact_mod_cast (div_neg_of_neg_of_pos hv (branchStep_pos v)).le)
    obtain hzero | hneg := hle.eq_or_lt
    · simp [hzero]
    · rw [branchStep_of_neg (Int.cast_lt_zero.mpr hneg), branchStep_of_neg hv]
  · have hge : 0 ≤ roundQ mode (v / branchStep v) :=
      le_roundQ mode (by exact_mod_cast div_nonneg hv (branchStep_pos v).le)
    rw [branchStep_of_nonneg (Int.cast_nonneg hge), branchStep_of_nonneg hv]

/-- The error of the conversion is the error of the rounding, in steps. -/
theorem abs_codeToVoltage_sub (mode : Rounding) {v : Volts} (h : |v| ≤ 10) :
    |codeToVoltage (codeOfVolts mode v) - v| =
      |(roundQ mode (v / branchStep v) : Rat) - v / branchStep v| * branchStep v := by
  have hpos := branchStep_pos v
  calc |codeToVoltage (codeOfVolts mode v) - v|
      = |(roundQ mode (v / branchStep v) - v / branchStep v) * branchStep v| := by
        rw [codeToVoltage_codeOfVolts mode h, sub_mul, div_mul_cancel₀ v hpos.ne']
    _ = _ := by rw [abs_mul, abs_of_pos hpos]

theorem abs_codeToVoltage_sub_lt (mode : Rounding) {v : Volts} (h : |v| ≤ 10) :
    |codeToVoltage (codeOfVolts mode v) - v| < branchStep v := by
  rw [abs_codeToVoltage_sub mode h]
  exact mul_lt_of_lt_one_left (branchStep_pos v) (abs_roundQ_sub_lt_one mode _)

theorem abs_codeToVoltage_sub_le_half {mode : Rounding} (hmode : mode ≠ .towardZero) {v : Volts} (h : |v| ≤ 10) :
    |codeToVoltage (codeOfVolts mode v) - v| ≤ (1 / 2) * branchStep v := by
  rw [abs_codeToVoltage_sub mode h]
  exact mul_le_mul_of_nonneg_right (abs_roundQ_sub_le_half hmode _) (branchStep_pos v).le

/-- Every code comes back from its voltage: an exact number of steps is not rounded. -/
theorem voltageToCode_codeToVoltage (mode : Rounding) (code : DacCode) :
    voltageToCode mode (codeToVoltage code) = some code := by
  have hrange := abs_codeToVoltage_le code
  have hsteps : codeToVoltage code / branchStep (codeToVoltage code) = code.toInt := by
    rw [codeToVoltage_eq_mul_branchStep, branchStep_mul_branchStep, mul_div_cancel_right₀ _ (branchStep_pos _).ne']
  rw [voltageToCode_of_le hrange, Option.some_inj, ← BitVec.toInt_inj, codeOfVolts_toInt mode hrange, hsteps,
    roundQ_intCast]

theorem codeToVoltage_injective : Function.Injective codeToVoltage := fun c d h => by
  have hback := congrArg (voltageToCode .towardZero) h
  rwa [voltageToCode_codeToVoltage, voltageToCode_codeToVoltage, Option.some_inj] at hback

/-- The ends of the range are the voltages of the ends of the signed code. -/
theorem codeToVoltage_ends : codeToVoltage 524287 = 10 ∧ codeToVoltage 524288 = -10 := by
  simp only [codeToVoltage_eq_ite]
  constructor
  · rw [show (524287 : DacCode).toInt = 524287 from rfl]
    norm_num
  · rw [show (524288 : DacCode).toInt = -524288 from rfl]
    norm_num

/-! ### Write frames and read responses (R175, R176) -/

/-- ORing the control byte over the top bits of the code puts the two nibbles side by side. -/
theorem zeroExtend_or_dacWriteCtrl (cfg : Config) (top : BitVec 4) :
    top.zeroExtend 8 ||| cfg.dacWriteCtrl = cfg.dacWriteNibble ++ top := by
  rw [Config.dacWriteCtrl]
  generalize cfg.dacWriteNibble = nibble
  revert nibble top
  decide

theorem writeFrame_eq_dacWriteBytes (cfg : Config) (code : DacCode) :
    writeFrame cfg code = dacWriteBytes cfg.dacWriteNibble code := by
  simp only [writeFrame, dacWriteBytes, zeroExtend_or_dacWriteCtrl, Bytes3.mk.injEq, ← BitVec.toNat_inj,
    toNat_append_eq_add, toNat_extractLsb'_eq_mod, BitVec.toNat_ofNat]
  omega

theorem dacWriteBytes_b0_mod (nibble : BitVec 4) (code : DacCode) :
    (dacWriteBytes nibble code).b0.toNat % 16 = code.toNat / 65536 := by
  simp only [dacWriteBytes, BitVec.toNat_ofNat]
  omega

/-- The code of a response as a sum of its bytes; the top nibble of byte 0 does not enter. -/
theorem readDecode_eq_ofNat (f : Bytes3) :
    readDecode f = BitVec.ofNat 20 (f.b0.toNat % 16 * 65536 + f.b1.toNat * 256 + f.b2.toNat) := by
  rw [readDecode_eq, ← BitVec.toNat_inj, dacCodeOfBytes]
  simp only [toNat_append_eq_add, toNat_extractLsb'_eq_mod, BitVec.toNat_ofNat]
  omega

theorem readDecode_writeFrame (cfg : Config) (code : DacCode) : readDecode (writeFrame cfg code) = code := by
  obtain ⟨-, hcode⟩ := bytesOfPattern_dacWriteWord_iff.mp (bytesOfPattern_dacWriteWord cfg.dacWriteNibble code)
  rw [writeFrame_eq_dacWriteBytes]
  exact (readDecode_eq _).trans hcode

/-! ### The operations of the converter, issued to an idle block (R173 to R176) -/

theorem exec_dacV2c_overrange {s : State} {v : Volts} (hs : s.seqpos = .idle) (h : 10 < |v|) :
    exec (.dacV2c v) s = .next (s.complete .voltageOverrange (.code 999)) := by
  rw [exec, execDacV2c, voltageToCode_of_lt h]
  exact completing_idle hs

theorem exec_dacV2c_inRange {s : State} {v : Volts} (hs : s.seqpos = .idle) (h : |v| ≤ 10) :
    exec (.dacV2c v) s = .next (s.complete .none (.code (codeOfVolts s.cfg.rounding v))) := by
  rw [exec, execDacV2c, voltageToCode_of_le h]
  exact completing_idle hs

theorem exec_dacC2v_idle {s : State} (hs : s.seqpos = .idle) (code : DacCode) :
    exec (.dacC2v code) s = .next (s.complete .none (.volts (codeToVoltage code))) :=
  completing_idle hs

theorem exec_dacWriteEncode_idle {s : State} (hs : s.seqpos = .idle) (code : DacCode) :
    exec (.dacWriteEncode code) s = .next (s.complete .none (.bytes3 (writeFrame s.cfg code))) :=
  completing_idle hs

theorem exec_dacReadDecode_idle {s : State} (hs : s.seqpos = .idle) (f : Bytes3) :
    exec (.dacReadDecode f) s = .next (s.complete .none (.code (readDecode f))) :=
  completing_idle hs

/-! ### The statements -/

/-- Settles O21: the first two modes are their floor formulas, the third by `roundQ_halfToEven_near`. -/
theorem roundingModes : Obligations.RoundingModes := by
  unfold Obligations.RoundingModes
  intro x
  refine ⟨fun hpos => ⟨if_pos hpos, if_pos hpos⟩, fun hneg => ⟨if_neg hneg.not_ge, if_neg hneg.not_ge⟩,
    abs_roundQ_sub_le_half (nofun : Rounding.halfToEven ≠ .towardZero) x, fun hhalf => ?_⟩
  obtain hlt | ⟨-, heven⟩ := roundQ_halfToEven_near x
  · exact absurd hhalf hlt.ne
  · exact heven

/-- Settles O22: a code not below zero is the rounding itself, and one below zero its residue. -/
theorem dacV2cConvertsOrRejects : Obligations.DacV2cConvertsOrRejects := by
  unfold Obligations.DacV2cConvertsOrRejects
  intro s v hs
  refine ⟨rfl, exec_dacV2c_overrange hs, fun hpos hle => ?positive, fun hneg hge => ?negative⟩
  case positive =>
    refine ⟨_, ?_, exec_dacV2c_inRange hs (abs_le.mpr ⟨by linarith, hle⟩)⟩
    have hlow : 0 ≤ roundQ s.cfg.rounding (v * 524287 / 10) :=
      le_roundQ _ (by push_cast; positivity)
    have hhigh : roundQ s.cfg.rounding (v * 524287 / 10) ≤ 524287 :=
      roundQ_le _ (by push_cast; linarith)
    rw [codeOfVolts_eq, if_neg hpos.not_gt, BitVec.toNat_ofInt]
    omega
  case negative =>
    refine ⟨_, ?_, exec_dacV2c_inRange hs (abs_le.mpr ⟨hge, by linarith⟩)⟩
    rw [codeOfVolts_eq, if_pos hneg, BitVec.toNat_ofInt]
    omega

/-- Settles O23: the two branches by `codeToVoltage_eq_ite`, the range by `abs_codeToVoltage_le`. -/
theorem dacC2vReadsSignedCode : Obligations.DacC2vReadsSignedCode := by
  unfold Obligations.DacC2vReadsSignedCode
  intro s code hs
  exact ⟨rfl, codeToVoltage code, exec_dacC2v_idle hs code, codeToVoltage_eq_ite code,
    abs_le.mp (abs_codeToVoltage_le code)⟩

/-- Settles O24: the frame is the pattern of 30 R95, whose bytes are the sums of its table. -/
theorem dacWriteEncodeLaysOutCode : Obligations.DacWriteEncodeLaysOutCode := by
  unfold Obligations.DacWriteEncodeLaysOutCode
  intro s code hs
  refine ⟨rfl, ?_, dacWriteBytes_b0_mod _ code, ?zeroCode⟩
  · exact writeFrame_eq_dacWriteBytes s.cfg code ▸ exec_dacWriteEncode_idle hs code
  case zeroCode =>
    rw [← writeFrame_eq_dacWriteBytes]
    simp [writeFrame]

/-- Settles O25: the masked bytes are a sum by `readDecode_eq_ofNat`, and `readDecode` takes a frame's code back. -/
theorem dacReadDecodeMasksNibble : Obligations.DacReadDecodeMasksNibble := by
  unfold Obligations.DacReadDecodeMasksNibble
  intro s f hs
  refine ⟨rfl, readDecode_eq_ofNat f ▸ exec_dacReadDecode_idle hs f, ?writeFrame⟩
  case writeFrame =>
    rintro cfg code rfl
    rw [exec_dacReadDecode_idle hs, readDecode_writeFrame]

/-- Settles O26: the accuracy is that of the rounding by `abs_codeToVoltage_sub`; the boundaries and the injectivity
follow from `voltageToCode_codeToVoltage`. -/
theorem converterFacts : Obligations.ConverterFacts := by
  unfold Obligations.ConverterFacts
  intro mode
  obtain ⟨htop, hbottom⟩ := codeToVoltage_ends
  refine ⟨fun v hv => ?accuracy, htop ▸ voltageToCode_codeToVoltage mode _,
    hbottom ▸ voltageToCode_codeToVoltage mode _, voltageToCode_of_lt (by norm_num) mode,
    fun _ _ h => codeToVoltage_injective h, voltageToCode_codeToVoltage mode⟩
  case accuracy =>
    have hstep := abs_codeToVoltage_sub_lt mode hv
    exact ⟨_, voltageToCode_of_le hv mode, hstep.trans_le (branchStep_le v), hstep,
      fun hmode => abs_codeToVoltage_sub_le_half hmode hv⟩

end Sys2Proof.Machine
end

section
/-!
Scope. Runs of one operation, and the data-ready wait in them (44_adc_driver.md R193, R197): the reads of a wait for any
operation that makes one, and the readings of a pass, for `ADC_FULL_READING` and for the passes of a buffered ramp.
-/

namespace Sys2Proof.Machine

/-! ### Runs of one operation -/

theorem execs_one (i : Instr) (s : State) : execs i 1 s = exec i s := by
  rw [execs]
  cases exec i s <;> rfl

/-- A run goes on from where its first part ends. -/
theorem execs_add_of_next {i : Instr} {m : Nat} {s t : State} (h : execs i m s = .next t) (n : Nat) :
    execs i (m + n) s = execs i n t := by
  induction m generalizing s with
  | zero => cases h; rw [Nat.zero_add]
  | succ m ih =>
    rw [Nat.add_right_comm, execs]
    rw [execs] at h
    cases hstep : exec i s with
    | next u => rw [hstep] at h; exact ih h
    | fault r => rw [hstep] at h; cases h
    | refused r => rw [hstep] at h; cases h

theorem execs_succ_of_next {i : Instr} {n : Nat} {s t : State} (h : execs i n s = .next t) :
    execs i (n + 1) s = exec i t := by
  rw [execs_add_of_next h, execs_one]

/-- An operation in progress runs from the point it rests at. -/
theorem running_pause (i : Instr) (k : Nat) (p : Point) (s : State) (body : Nat → Point → State → Outcome) :
    running i (s.pause i k p) body = body k p (s.pause i k p) :=
  running_busy rfl

/-! ### Reads of the data-ready pin -/

/-- The timeout allows more than `polls` reads, or there is none (R193). -/
theorem timedOut_eq_false_iff {cfg : Config} {polls : Nat} :
    timedOut cfg polls = false ↔ ∀ limit, cfg.drdyTimeoutPolls = some limit → polls < limit := by
  unfold timedOut
  split
  next h => simp [h]
  next n h => simp [h]

@[simp] theorem iterate_pollDrdy_cfg (n : Nat) (s : State) : (State.pollDrdy^[n] s).cfg = s.cfg := by
  induction n generalizing s with
  | zero => rfl
  | succ n ih => rw [Function.iterate_succ_apply, ih, State.pollDrdy_cfg]

/-- Each read takes one level from the environment. -/
@[simp] theorem iterate_pollDrdy_levelAnswers (n : Nat) (s : State) :
    (State.pollDrdy^[n] s).levelAnswers = s.levelAnswers.drop n := by
  induction n generalizing s with
  | zero => rfl
  | succ n ih => rw [Function.iterate_succ_apply, ih, State.pollDrdy_levelAnswers, List.drop_tail]

/-- Behind `n` high reads the next one answers the level queued after them. -/
theorem levelNow_iterate_pollDrdy {s : State} {n : Nat} {rest : List Level} {l : Level}
    (h : s.levelAnswers = List.replicate n .high ++ l :: rest) : (State.pollDrdy^[n] s).levelNow = l := by
  refine levelNow_answer (rest := rest) ?_
  rw [iterate_pollDrdy_levelAnswers, h, List.drop_left' (List.length_replicate ..)]

/-! ### The data-ready wait (R193) -/

/-- From `s₀`, having performed `k` events, the operation `i` waits for data ready: its next event is the first read,
made in the state `s` with the wait begun; resting after `polls` reads at `again polls` it reads once more. The wait
ends at `ready` or at `expired`. -/
structure IsWait (i : Instr) (k : Nat) (ready expired : Point) (again : Nat → Point) (s₀ s : State) : Prop where
  first : exec i s₀ = pollStep i k 1 ready expired (again 1) { s with adcState := .awaitingDataReady }
  next : ∀ (m polls : Nat) (t : State), exec i (t.pause i m (again polls)) =
    pollStep i m (polls + 1) ready expired (again (polls + 1)) t

section Wait

variable {i : Instr} {k : Nat} {ready expired : Point} {again : Nat → Point} {s₀ s : State} {rest : List Level}

/-- After `n` high reads, none of them the last allowed, the wait makes read `n + 1`. -/
theorem IsWait.execs_succ (hw : IsWait i k ready expired again s₀ s) {n : Nat}
    (hlevels : s.levelAnswers = List.replicate n .high ++ rest) (htime : timedOut s.cfg n = false) :
    execs i (n + 1) s₀ = pollStep i (k + n) (n + 1) ready expired (again (n + 1))
      (State.pollDrdy^[n] { s with adcState := .awaitingDataReady }) := by
  induction n generalizing rest with
  | zero => rw [execs_one, hw.first]; rfl
  | succ n ih =>
    rw [List.replicate_succ', List.append_assoc] at hlevels
    have hearlier : timedOut s.cfg n = false :=
      timedOut_eq_false_iff.mpr fun limit hlimit => by
        have := timedOut_eq_false_iff.mp htime limit hlimit
        omega
    have hhigh : (State.pollDrdy^[n] { s with adcState := .awaitingDataReady }).levelNow = .high :=
    levelNow_iterate_pollDrdy hlevels
    have hrun := ih hlevels hearlier
    rw [pollStep_high hhigh, iterate_pollDrdy_cfg, htime] at hrun
    rw [execs_succ_of_next hrun, Function.iterate_succ_apply']
    exact hw.next ..

/-- A wait whose `highs` reads before a low one stay below the timeout ends with the low read. -/
theorem IsWait.execs_ready (hw : IsWait i k ready expired again s₀ s) {highs : Nat}
    (hlevels : s.levelAnswers = List.replicate highs .high ++ .low :: rest) (htime : timedOut s.cfg highs = false) :
    execs i (highs + 1) s₀ = .next ((bigWait highs s).pause i (k + highs + 1) ready) := by
  have hlow : (State.pollDrdy^[highs] { s with adcState := .awaitingDataReady }).levelNow = .low :=
    levelNow_iterate_pollDrdy hlevels
  rw [hw.execs_succ hlevels htime, pollStep_low hlow, bigWait, Function.iterate_succ_apply']

/-- After `n + 1` high reads the wait has timed out if that was the last read allowed, and else still polls. -/
theorem IsWait.execs_high (hw : IsWait i k ready expired again s₀ s) {n : Nat}
    (hlevels : s.levelAnswers = List.replicate (n + 1) .high ++ rest) (htime : timedOut s.cfg n = false) :
    execs i (n + 1) s₀ = .next ((State.pollDrdy^[n + 1] { s with adcState := .awaitingDataReady }).pause i (k + n + 1)
      (if timedOut s.cfg (n + 1) then expired else again (n + 1))) := by
  rw [List.replicate_succ', List.append_assoc] at hlevels
  have hhigh : (State.pollDrdy^[n] { s with adcState := .awaitingDataReady }).levelNow = .high :=
    levelNow_iterate_pollDrdy hlevels
  rw [hw.execs_succ hlevels htime, pollStep_high hhigh, iterate_pollDrdy_cfg, Function.iterate_succ_apply']

/-- A wait that reads high as often as its timeout allows times out. -/
theorem IsWait.execs_expired (hw : IsWait i k ready expired again s₀ s) {limit : Nat} (hpos : 1 ≤ limit)
    (hlimit : s.cfg.drdyTimeoutPolls = some limit) (hlevels : s.levelAnswers = List.replicate limit .high ++ rest) :
    execs i limit s₀ = .next
      ((State.pollDrdy^[limit] { s with adcState := .awaitingDataReady }).pause i (k + limit) expired) := by
  obtain ⟨n, rfl⟩ := Nat.exists_eq_add_of_le' hpos
  have hbefore : timedOut s.cfg n = false := by simp [timedOut, hlimit]
  have hlast : timedOut s.cfg (n + 1) = true := by simp [timedOut, hlimit]
  rw [hw.execs_high hlevels hbefore, if_pos hlast]
  rfl

end Wait

/-! ### Passes over the channels (R197) -/

section Pass

variable {i : Instr} {atEnd onTimeout : Pass → State → Outcome}

/-- At the points of a pass, the operation `i` goes on as `fullReading` does, with these ends. -/
def RunsPass (i : Instr) (atEnd onTimeout : Pass → State → Outcome) : Prop :=
  ∀ (k : Nat) (p : Point) (s : State), p.InPass (fun _ => True) →
    exec i (s.pause i k p) = resumePass i atEnd onTimeout k p (s.pause i k p)

/-- A pass waits for each of its channels. -/
theorem RunsPass.isWait (hi : RunsPass i atEnd onTimeout) (k : Nat) (pass : Pass) (c : AdcChan) (todo : List AdcChan)
    (s : State) : IsWait i k (.passReady pass c todo) (.passTimedOut pass) (.passPolling pass c todo)
      (s.pause i k (.passNext pass (c :: todo))) s where
  first := hi k (.passNext pass (c :: todo)) s trivial
  next m polls t := hi m (.passPolling pass c todo polls) t trivial

/-- A pass reads a channel once the wait for it has read low. -/
theorem RunsPass.execs_channel (hi : RunsPass i atEnd onTimeout) (k : Nat) (pass : Pass) {c : AdcChan} {highs : Nat}
    (todo : List AdcChan) {s : State} {rest : List Level}
    (hlevels : s.levelAnswers = List.replicate highs .high ++ .low :: rest) (htime : timedOut s.cfg highs = false) :
    execs i (highs + 2) (s.pause i k (.passNext pass (c :: todo))) =
      .next (((bigWait highs s).readChannel c).pause i (k + highs + 2)
        (afterRead pass c (bigWait highs s).nextAdcCode todo)) := by
  rw [execs_succ_of_next ((hi.isWait k pass c todo s).execs_ready hlevels htime)]
  exact hi _ (.passReady pass c todo) _ trivial

/-- A pass whose wait reads high as often as the timeout allows is given up with `adcState` back at `Idle`. -/
theorem RunsPass.execs_timeout (hi : RunsPass i atEnd onTimeout) (k : Nat) (pass : Pass) {c : AdcChan} {limit : Nat}
    (todo : List AdcChan) {s : State} {rest : List Level} (hpos : 1 ≤ limit)
    (hlimit : s.cfg.drdyTimeoutPolls = some limit) (hlevels : s.levelAnswers = List.replicate limit .high ++ rest) :
    execs i (limit + 1) (s.pause i k (.passNext pass (c :: todo))) =
      onTimeout pass (({ State.pollDrdy^[limit] { s with adcState := .awaitingDataReady } with
        adcState := .idle } : State).pause i (k + limit) (.passTimedOut pass)) := by
  rw [execs_succ_of_next ((hi.isWait k pass c todo s).execs_expired hpos hlimit hlevels)]
  exact hi _ (.passTimedOut pass) _ trivial

end Pass

@[simp] theorem bigWait_cfg (highs : Nat) (s : State) : (bigWait highs s).cfg = s.cfg :=
  iterate_pollDrdy_cfg ..

@[simp] theorem bigWait_levelAnswers (highs : Nat) (s : State) :
    (bigWait highs s).levelAnswers = s.levelAnswers.drop (highs + 1) :=
  iterate_pollDrdy_levelAnswers ..

/-! ### The readings of a list of waits -/

@[simp] theorem levelsOf_cons (c : AdcChan) (highs : Nat) (waits : Waits) :
    levelsOf ((c, highs) :: waits) = List.replicate highs .high ++ .low :: levelsOf waits := by
  simp [levelsOf]

theorem bigReadings_cons (c : AdcChan) (highs : Nat) (waits : Waits) (s : State) :
    bigReadings ((c, highs) :: waits) s =
      (⟨c, (bigWait highs s).nextAdcCode, adcCodeToVoltage (bigWait highs s).nextAdcCode⟩ ::
        (bigReadings waits ((bigWait highs s).readChannel c)).1,
       (bigReadings waits ((bigWait highs s).readChannel c)).2) := rfl

@[simp] theorem bigReadings_cfg (waits : Waits) (s : State) : (bigReadings waits s).2.cfg = s.cfg := by
  induction waits generalizing s with
  | nil => rfl
  | cons w waits ih => simp [bigReadings, ih]

/-- The readings take the levels of their waits from the environment. -/
theorem bigReadings_levelAnswers {waits : Waits} {s : State} {rest : List Level}
    (h : s.levelAnswers = levelsOf waits ++ rest) : (bigReadings waits s).2.levelAnswers = rest := by
  induction waits generalizing s with
  | nil => exact h
  | cons w waits ih =>
    obtain ⟨c, highs⟩ := w
    refine ih ?_
    rw [State.readChannel_levelAnswers, bigWait_levelAnswers, h]
    have hwait : levelsOf ((c, highs) :: waits) ++ rest =
        (List.replicate highs .high ++ [.low]) ++ (levelsOf waits ++ rest) := by simp
    rw [hwait, List.drop_left' (by simp)]

end Sys2Proof.Machine
end

section
/-!
Scope. The operations of the AdcDriver (44_adc_driver.md R190 to R201), issued to an idle block: conversion, channel
configuration, disable-all, mode select, the data-ready wait, one reading and a full reading.
-/

namespace Sys2Proof.Machine

/-! ### Code conversion (R200, R201) -/

/-- The shifted bytes of R200 as a sum. -/
theorem threeByteToCode_toNat (f : Bytes3) :
    (threeByteToCode f).toNat = f.b0.toNat * 65536 + f.b1.toNat * 256 + f.b2.toNat := by
  have hbyte (b : Byte) : (b.zeroExtend 24).toNat = b.toNat := BitVec.toNat_setWidth_of_le (by decide)
  have hlow : (f.b1.zeroExtend 24 <<< 8 ||| f.b2.zeroExtend 24).toNat = f.b1.toNat * 256 + f.b2.toNat := by
    rw [toNat_shiftLeft_or (by rw [hbyte]; omega) (by rw [hbyte]; omega), hbyte, hbyte]
    omega
  rw [threeByteToCode, BitVec.or_assoc, toNat_shiftLeft_or (by rw [hbyte]; omega) (by omega), hlow, hbyte]
  omega

theorem adcCodeToVoltage_eq (code : AdcCode) : adcCodeToVoltage code = ((code.toNat : Rat) / 8388608 - 1) * 25 := rfl

/-- The voltages of the 24-bit codes run from -25 to one step below 25. -/
theorem adcCodeToVoltage_bounds (code : AdcCode) :
    -25 ≤ adcCodeToVoltage code ∧ adcCodeToVoltage code ≤ 25 * 8388607 / 8388608 := by
  have hnonneg : (0 : Rat) ≤ code.toNat := Nat.cast_nonneg _
  have hle : (code.toNat : Rat) ≤ 16777215 := by exact_mod_cast Nat.le_of_lt_succ code.isLt
  rw [adcCodeToVoltage_eq]
  constructor <;> linarith

/-- Settles O27: the code by `threeByteToCode_toNat`, its range by `adcCodeToVoltage_bounds`. -/
theorem adcCodeDecodeConverts : Obligations.AdcCodeDecodeConverts := by
  unfold Obligations.AdcCodeDecodeConverts
  intro s f hs
  obtain ⟨hlow, hhigh⟩ := adcCodeToVoltage_bounds (threeByteToCode f)
  exact ⟨rfl, threeByteToCode f, adcCodeToVoltage (threeByteToCode f), threeByteToCode_toNat f, adcCodeToVoltage_eq _,
    hlow, hhigh, completing_idle hs⟩

/-! ### One transfer and its bookkeeping (R190 to R192) -/

section Configure

variable {s : State} (ch : AdcChan) {state setup p n : BitVec 32}

/-- A configuration that fails a check completes with its error alone. -/
theorem exec_adcConfigureChannel_error (hs : s.seqpos = .idle) {e : Err}
    (h : ConfigError state.toInt setup.toInt p.toInt n.toInt e) :
    exec (.adcConfigureChannel ch state setup p n) s = .next (s.complete e .unit) := by
  have hne : e ≠ .none := by
    rintro rfl
    simp [ConfigError] at h
  rw [exec, execAdcConfigureChannel, running_idle hs]
  simp only [validate_eq_iff.mpr (.inl h), if_neg hne]

/-- A valid configuration is sent and its state recorded in one step. -/
theorem exec_adcConfigureChannel_valid (hs : s.seqpos = .idle)
    (h : ConfigValid state.toInt setup.toInt p.toInt n.toInt) :
    exec (.adcConfigureChannel ch state setup p n) s =
      .next (({ s.transfer .adcSelect (pack ch state.toInt setup.toInt p.toInt n.toInt).toList with
          enabled := s.enabled.set ch (state.toInt = 1) } : State).pause
        (.adcConfigureChannel ch state setup p n) 1
        (.finish .none (.bytes3 (pack ch state.toInt setup.toInt p.toInt n.toInt)))) := by
  have hstate : (state == 1) = decide (state.toInt = 1) := by
    rw [Bool.eq_iff_iff, beq_iff_eq, decide_eq_true_iff, ← BitVec.toInt_inj]
    rfl
  rw [exec, execAdcConfigureChannel, running_idle hs]
  simp only [validate_eq_none_iff.mpr h, if_true, hstate]

end Configure

/-- Settles O28: `validate_eq_iff` says which check answers; a valid configuration is packed by `pack_eq_chcfgBytes`. -/
theorem adcConfigureChannelCommitsOnSuccess : Obligations.AdcConfigureChannelCommitsOnSuccess := by
  unfold Obligations.AdcConfigureChannelCommitsOnSuccess
  intro s ch state setup p n hs
  refine ⟨rfl, fun e he => exec_adcConfigureChannel_error ch hs he, fun hvalid => ?_⟩
  rw [← pack_eq_chcfgBytes ch hvalid]
  refine ⟨_, _, rfl, rfl, exec_adcConfigureChannel_valid ch hs hvalid, ?_⟩
  rw [exec, execAdcConfigureChannel, running_busy rfl]

/-- Settles O29: the bytes are the pattern of 30 R92 by `disableAllBytes_eq_disableAllPattern`. -/
theorem adcDisableAllClearsEnables : Obligations.AdcDisableAllClearsEnables := by
  unfold Obligations.AdcDisableAllClearsEnables
  refine ⟨rfl, fun s hs => ⟨_, rfl, ?transfer, ?complete⟩⟩
  case transfer =>
    rw [exec, execAdcDisableAll, running_idle hs, ← disableAllBytes_eq_disableAllPattern]
    rfl
  case complete => rw [exec, execAdcDisableAll, running_busy rfl]

/-- Settles O30: the first step is the mode frame's transfer, the second the `Complete`. -/
theorem adcSelectModeSendsModeFrame : Obligations.AdcSelectModeSendsModeFrame := by
  unfold Obligations.AdcSelectModeSendsModeFrame
  refine ⟨rfl, fun s hs => ⟨_, rfl, ?transfer, ?complete⟩⟩
  case transfer =>
    rw [exec, execAdcSelectMode, running_idle hs]
    rfl
  case complete => rw [exec, execAdcSelectMode, running_busy rfl]

/-! ### The data-ready wait (R193, R194) -/

/-- `ADC_WAIT_DRDY` is one wait. -/
theorem adcWaitDrdy_isWait {s : State} (hs : s.seqpos = .idle) :
    IsWait .adcWaitDrdy 0 (.finish .none .unit) .waitTimedOut .polling s s where
  first := by rw [exec, execAdcWaitDrdy, running_idle hs]
  next m polls t := by
    rw [exec, execAdcWaitDrdy, running_pause]
    rfl

theorem exec_adcWaitDrdy_finish (k : Nat) (err : Err) (value : Value) (s : State) :
    exec .adcWaitDrdy (s.pause .adcWaitDrdy k (.finish err value)) = .next (s.complete err value) := by
  rw [exec, execAdcWaitDrdy, running_pause]
  rfl

theorem exec_adcWaitDrdy_timedOut (k : Nat) (s : State) :
    exec .adcWaitDrdy (s.pause .adcWaitDrdy k .waitTimedOut) =
      .next (({ s with adcState := .idle } : State).complete .dataReadyTimeout .unit) := by
  rw [exec, execAdcWaitDrdy, running_pause]
  rfl

/-- Settles O31: the reads of the wait by `IsWait`'s lemmas, then the `Complete` the wait leads to. -/
theorem adcWaitDrdyPollsUntilLowOrTimeout : Obligations.AdcWaitDrdyPollsUntilLowOrTimeout := by
  unfold Obligations.AdcWaitDrdyPollsUntilLowOrTimeout
  refine ⟨rfl, fun s hs hlow => ?lowAtOnce, fun s n rest hs hlevels hlimit => ?highsThenLow,
    fun s limit rest hs hpos hlimit hlevels => ?timeout, fun s n rest hs hlimit hlevels => ?endless⟩
  case lowAtOnce =>
    exact ⟨_, (adcWaitDrdy_isWait hs).first.trans (pollStep_low hlow), exec_adcWaitDrdy_finish ..⟩
  case highsThenLow =>
    rw [execs_succ_of_next ((adcWaitDrdy_isWait hs).execs_ready hlevels (timedOut_eq_false_iff.mpr hlimit))]
    exact exec_adcWaitDrdy_finish ..
  case timeout =>
    rw [execs_succ_of_next ((adcWaitDrdy_isWait hs).execs_expired hpos hlimit hlevels)]
    exact exec_adcWaitDrdy_timedOut ..
  case endless =>
    have hnever (polls : Nat) : timedOut s.cfg polls = false := by simp [timedOut, hlimit]
    rw [(adcWaitDrdy_isWait hs).execs_high hlevels (hnever n), hnever, Nat.zero_add]
    rfl

/-! ### One reading (R195, R196) -/

/-- Settles O32: the code is that of `rx[1..3]`, a sum by `threeByteToCode_toNat`. -/
theorem adcReadChannelFilesResult : Obligations.AdcReadChannelFilesResult := by
  unfold Obligations.AdcReadChannelFilesResult
  intro s ch r0 r1 r2 r3 hs hrx
  have hcode : s.nextAdcCode = threeByteToCode ⟨r1, r2, r3⟩ := by
    rw [State.nextAdcCode, hrx]
    rfl
  refine ⟨rfl, s.nextAdcCode, adcCodeToVoltage s.nextAdcCode, _, hcode ▸ threeByteToCode_toNat _,
    adcCodeToVoltage_eq _, rfl, ?transfer, ?complete⟩
  case transfer =>
    rw [exec, execAdcReadChannel, running_idle hs]
    rfl
  case complete => rw [exec, execAdcReadChannel, running_busy rfl]

/-! ### Full readings (R197, R198) -/

/-- `ADC_FULL_READING` is a pass after its mode frame. -/
theorem adcFullReading_runsPass : RunsPass .adcFullReading finishReading abortReading := by
  intro k p s hp
  rw [exec, execAdcFullReading, running_pause]
  cases p with
  | start => exact hp.elim
  | _ => rfl

/-- The first event is the mode frame; the pass goes over a snapshot of the enables (R198). -/
theorem exec_adcFullReading_idle {s : State} (hs : s.seqpos = .idle) : exec .adcFullReading s =
    .next (s.sendMode.pause .adcFullReading 1 (.passNext (.reading []) (enabledChans s.enabled))) := by
  rw [exec, execAdcFullReading, running_idle hs]
  rfl

theorem exec_adcFullReading_atEnd (k : Nat) (results : List Reading) (s : State) :
    exec .adcFullReading (s.pause .adcFullReading k (.passNext (.reading results) [])) =
      .next (({ s with adcState := .idle } : State).complete .none (.readings results)) :=
  adcFullReading_runsPass k (.passNext (.reading results) []) s trivial

/-- A full reading reads the channels of waits that end low one after the other and appends their results. -/
theorem execs_adcFullReading_waits {waits : Waits} {rest : List Level} {todo : List AdcChan} (k : Nat)
    (results : List Reading) {s : State} (hlevels : s.levelAnswers = levelsOf waits ++ rest)
    (htime : ∀ w ∈ waits, timedOut s.cfg w.2 = false) :
    execs .adcFullReading ((levelsOf waits).length + waits.length)
        (s.pause .adcFullReading k (.passNext (.reading results) (waits.map Prod.fst ++ todo))) =
      .next ((bigReadings waits s).2.pause .adcFullReading (k + ((levelsOf waits).length + waits.length))
        (.passNext (.reading (results ++ (bigReadings waits s).1)) todo)) := by
  induction waits generalizing s k results with
  | nil => simp [execs, bigReadings, levelsOf]
  | cons w waits ih =>
    obtain ⟨c, highs⟩ := w
    obtain ⟨hfirst, hlater⟩ := List.forall_mem_cons.mp htime
    have hcount : (levelsOf ((c, highs) :: waits)).length + ((c, highs) :: waits).length =
        highs + 2 + ((levelsOf waits).length + waits.length) := by
      simp
      omega
    have hafter : ((bigWait highs s).readChannel c).levelAnswers = levelsOf waits ++ rest :=
      bigReadings_levelAnswers (waits := [(c, highs)]) (by rw [hlevels]; simp [levelsOf])
    rw [levelsOf_cons, List.append_assoc] at hlevels
    have hchannel := adcFullReading_runsPass.execs_channel (c := c) k (.reading results) (waits.map Prod.fst ++ todo)
      hlevels hfirst
    rw [hcount, bigReadings_cons, List.append_cons, ← Nat.add_assoc k (highs + 2)]
    exact (execs_add_of_next hchannel _).trans (ih _ _ hafter (by simpa using hlater))

/-- A full reading sends the mode frame and reads the first enabled channels, when their waits end low. -/
theorem execs_adcFullReading_idle {s : State} (hs : s.seqpos = .idle) {waits : Waits} {rest : List Level}
    {before todo : List AdcChan} (henabled : enabledChans s.enabled = before ++ todo)
    (hwaits : WaitsEnd s.cfg before waits) (hlevels : s.levelAnswers = levelsOf waits ++ rest) :
    execs .adcFullReading ((levelsOf waits).length + waits.length + 1) s =
      .next ((bigReadings waits s.sendMode).2.pause .adcFullReading (1 + ((levelsOf waits).length + waits.length))
        (.passNext (.reading (bigReadings waits s.sendMode).1) todo)) := by
  obtain ⟨rfl, hlimit⟩ := hwaits
  have hstart := (execs_one .adcFullReading s).trans (exec_adcFullReading_idle hs)
  rw [Nat.add_comm, execs_add_of_next hstart, henabled]
  exact execs_adcFullReading_waits (s := s.sendMode) 1 [] hlevels
    fun w hw => timedOut_eq_false_iff.mpr fun limit h => hlimit limit h w hw

/-- Settles O33: the mode frame and the readings by `execs_adcFullReading_idle`, then the `Complete`. -/
theorem adcFullReadingReadsEnabledChannels : Obligations.AdcFullReadingReadsEnabledChannels := by
  unfold Obligations.AdcFullReadingReadsEnabledChannels
  refine ⟨rfl, fun s waits rest hs hwaits hlevels => ⟨⟨_, exec_adcFullReading_idle hs⟩, ?results⟩⟩
  case results =>
    rw [execs_succ_of_next (execs_adcFullReading_idle hs (List.append_nil _).symm hwaits hlevels)]
    exact exec_adcFullReading_atEnd ..

/-- Settles O34: the readings before by `execs_adcFullReading_idle`, the wait that times out, then the `Complete`. -/
theorem adcFullReadingTimeoutKeepsEarlierResults : Obligations.AdcFullReadingTimeoutKeepsEarlierResults := by
  unfold Obligations.AdcFullReadingTimeoutKeepsEarlierResults
  intro s waits before after c limit rest hs henabled hwaits hpos hlimit hlevels
  rw [List.append_assoc] at hlevels
  have hcount : (levelsOf waits).length + waits.length + limit + 2 =
      (levelsOf waits).length + waits.length + 1 + (limit + 1) := by omega
  rw [hcount, execs_add_of_next (execs_adcFullReading_idle hs henabled hwaits hlevels)]
  exact adcFullReading_runsPass.execs_timeout _ (.reading _) after hpos (by simpa using hlimit)
    (bigReadings_levelAnswers (s := s.sendMode) hlevels)

end Sys2Proof.Machine
end

section
/-!
Scope. The operations of the DacDriver (45_dac_driver.md R210 to R217), issued to an idle block: initialisation, the
latch pulse, a voltage write and the two readbacks.
-/

namespace Sys2Proof.Machine

/-- A run goes on from where its first step ends. -/
theorem execs_of_exec_next {i : Instr} {s t : State} (h : exec i s = .next t) (n : Nat) :
    execs i (n + 1) s = execs i n t := by
  rw [execs, h]

/-! ### Initialisation (R210) -/

/-- The init frame on the select line of one channel (R210). -/
def State.sendInit (s : State) (c : DacChan) : State := s.transfer (.sync c) s.cfg.dacInitFrame.toList

/-- At rest between frames, the next event is that of the channels left. -/
theorem exec_dacInitAll_pause (k : Nat) (todo : List DacChan) (s : State) :
    exec .dacInitAll (s.pause .dacInitAll k (.initNext todo)) = initNext k todo s := by
  rw [exec, execDacInitAll, running_pause]
  cases todo <;> rfl

theorem exec_dacInitAll_idle {s : State} (hs : s.seqpos = .idle) :
    exec .dacInitAll s = initNext 0 allDacChans s := by
  rw [exec, execDacInitAll, running_idle hs]

/-- From any state whose next event is that of the channels `todo`, the init frame goes to each of them in order. -/
theorem execs_dacInitAll {todo : List DacChan} {k : Nat} {s₀ s : State}
    (h : exec .dacInitAll s₀ = initNext k todo s) :
    execs .dacInitAll (todo.length + 1) s₀ = .next ((todo.foldl State.sendInit s).complete .none .unit) := by
  induction todo generalizing k s₀ s with
  | nil => exact (execs_one ..).trans h
  | cons c rest ih =>
    rw [List.length_cons, execs_of_exec_next h]
    exact ih (exec_dacInitAll_pause (k + 1) rest (s.sendInit c))

/-- Settles O35: `execs_dacInitAll` for the four channels in ascending order. -/
theorem dacInitAllSendsFourFrames : Obligations.DacInitAllSendsFourFrames := by
  unfold Obligations.DacInitAllSendsFourFrames
  exact ⟨rfl, fun s hs => ⟨⟨_, exec_dacInitAll_idle hs⟩, execs_dacInitAll (exec_dacInitAll_idle hs)⟩⟩

/-! ### The latch pulse (R213, R214) -/

/-- Settles O38: each of the three steps runs from the point the step before left. -/
theorem dacUpdateOutputsPulsesLatch : Obligations.DacUpdateOutputsPulsesLatch := by
  unfold Obligations.DacUpdateOutputsPulsesLatch
  refine ⟨rfl, fun s hs => ⟨_, _, rfl, rfl, ?low, ?high, ?complete⟩⟩
  case low =>
    rw [exec, execDacUpdateOutputs, running_idle hs]
    rfl
  case high =>
    rw [exec, execDacUpdateOutputs, running_busy rfl]
    rfl
  case complete => rw [exec, execDacUpdateOutputs, running_busy rfl]

/-! ### Voltage writes (R211 to R213) -/

section SetVoltage

variable (ch : DacChan) {v : Volts} (update : Bool)

/-- The write of a code, with its frame by the table of 30 R95. -/
theorem State.writeDac_eq (s : State) (code : DacCode) :
    s.writeDac ch code = { s.transfer (.sync ch) (dacWriteBytes s.cfg.dacWriteNibble code).toList with
      dac := s.dac.set ch { s.dac[ch] with lastCode := some code } } := by
  rw [State.writeDac, writeFrame_eq_dacWriteBytes]

/-- An overrange is rejected before any bus event. -/
theorem exec_dacSetVoltage_overrange {s : State} (hs : s.seqpos = .idle) (h : 10 < |v|) :
    exec (.dacSetVoltage ch v update) s = .next (s.complete .voltageOverrange (.volts 999)) := by
  rw [exec, execDacSetVoltage, running_idle hs]
  simp only [voltageToCode_of_lt h]
  rfl

/-- A voltage in range is written and recorded in the first step. -/
theorem exec_dacSetVoltage_inRange {s : State} (hs : s.seqpos = .idle) (h : |v| ≤ 10) :
    exec (.dacSetVoltage ch v update) s = .next ((s.writeDac ch (codeOfVolts s.cfg.rounding v)).pause
      (.dacSetVoltage ch v update) 1
      (if update then .wrote (codeOfVolts s.cfg.rounding v)
        else .finish .none (.volts (codeToVoltage (codeOfVolts s.cfg.rounding v))))) := by
  rw [exec, execDacSetVoltage, running_idle hs]
  simp only [voltageToCode_of_le h]

theorem exec_dacSetVoltage_finish (k : Nat) (err : Err) (value : Value) (s : State) :
    exec (.dacSetVoltage ch v update) (s.pause (.dacSetVoltage ch v update) k (.finish err value)) =
      .next (s.complete err value) := by
  rw [exec, execDacSetVoltage, running_pause]
  rfl

/-- After a write that updates the outputs come the latch pulse and the `Complete`. -/
theorem execs_dacSetVoltage_wrote (k : Nat) (code : DacCode) (s : State) :
    execs (.dacSetVoltage ch v update) 3 (s.pause (.dacSetVoltage ch v update) k (.wrote code)) =
      .next ((bigPulse s).complete .none (.volts (codeToVoltage code))) := by
  have hlow : exec (.dacSetVoltage ch v update) (s.pause (.dacSetVoltage ch v update) k (.wrote code)) =
      .next ((s.setLatch .low).pause (.dacSetVoltage ch v update) (k + 1) (.lowered code)) := by
    rw [exec, execDacSetVoltage, running_pause]
    rfl
  have hhigh : exec (.dacSetVoltage ch v update)
      ((s.setLatch .low).pause (.dacSetVoltage ch v update) (k + 1) (.lowered code)) =
      .next ((bigPulse s).pause (.dacSetVoltage ch v update) (k + 2)
        (.finish .none (.volts (codeToVoltage code)))) := by
    rw [exec, execDacSetVoltage, running_pause]
    rfl
  rw [execs_of_exec_next hlow, execs_of_exec_next hhigh, execs_one]
  exact exec_dacSetVoltage_finish ..

end SetVoltage

/-- Settles O36: one write by `exec_dacSetVoltage_inRange`, then the `Complete`, with the pulse before it if the
outputs are updated. -/
theorem dacSetVoltageWritesAndCommits : Obligations.DacSetVoltageWritesAndCommits := by
  unfold Obligations.DacSetVoltageWritesAndCommits
  intro s ch v update hs
  refine ⟨rfl, exec_dacSetVoltage_overrange ch update hs, fun hv => ?inRange⟩
  case inRange =>
    have hwrite := exec_dacSetVoltage_inRange ch update hs hv
    refine ⟨_, _, voltageToCode_of_le hv _, State.writeDac_eq .., ⟨_, hwrite, rfl⟩, ?kept, ?latched⟩
    case kept =>
      rintro rfl
      rw [execs_of_exec_next hwrite, execs_one]
      exact exec_dacSetVoltage_finish ..
    case latched =>
      rintro rfl
      rw [execs_of_exec_next hwrite]
      exact execs_dacSetVoltage_wrote ..

/-! ### Readback (R215 to R217) -/

/-- The code of a readback is the masked sum of the three bytes of the second answer. -/
theorem nextDacCode_eq {s : State} {r0 r1 r2 : Byte} {c : DacCode} (hrx : s.rxFor 3 = [r0, r1, r2])
    (hc : c.toNat = r0.toNat % 16 * 65536 + r1.toNat * 256 + r2.toNat) : s.nextDacCode = c := by
  calc s.nextDacCode
      = readDecode ⟨r0, r1, r2⟩ := by rw [State.nextDacCode, hrx]; rfl
    _ = BitVec.ofNat 20 (r0.toNat % 16 * 65536 + r1.toNat * 256 + r2.toNat) := readDecode_eq_ofNat _
    _ = c := by rw [← hc, BitVec.ofNat_toNat, BitVec.setWidth_eq]

/-- An operation whose steps are those of `readDac` makes the two transfers of a readback and completes with the value
`result` makes of the code: `DAC_READ_VOLTAGE` and `DAC_READ_REGISTER` differ in `result` only. -/
theorem execs_readDac {i : Instr} {c : DacChan} {result : DacCode → Value}
    (hi : ∀ t, exec i t = running i t (readDac i c result)) {s : State} (hs : s.seqpos = .idle) :
    (∃ t, exec i s = .next t) ∧
    execs i 3 s = .next (((s.transfer (.sync c) s.cfg.dacReadReq.toList).readDacBack c).complete .none
      (result (s.transfer (.sync c) s.cfg.dacReadReq.toList).nextDacCode)) := by
  have hrequest : exec i s =
      .next ((s.transfer (.sync c) s.cfg.dacReadReq.toList).pause i 1 .readRequested) := by
    rw [hi, running_idle hs, readDac]
  refine ⟨⟨_, hrequest⟩, ?_⟩
  generalize s.transfer (.sync c) s.cfg.dacReadReq.toList = t at hrequest ⊢
  have hback : exec i (t.pause i 1 .readRequested) =
      .next ((t.readDacBack c).pause i 2 (.finish .none (result t.nextDacCode))) := by
    rw [hi, running_pause]
    rfl
  rw [execs_of_exec_next hrequest, execs_of_exec_next hback, execs_one, hi, running_pause]
  rfl

/-- Settles O37: `execs_readDac` for both operations, with the code of the answer by `nextDacCode_eq`. -/
theorem dacReadbackTakesTwoTransfers : Obligations.DacReadbackTakesTwoTransfers := by
  unfold Obligations.DacReadbackTakesTwoTransfers
  intro s ch r0 r1 r2 c hs hrx hc
  have hcode := nextDacCode_eq hrx hc
  obtain ⟨hvoltageFirst, hvoltage⟩ := execs_readDac (i := .dacReadVoltage ch) (fun _ => rfl) hs
  obtain ⟨hregisterFirst, hregister⟩ := execs_readDac (i := .dacReadRegister ch) (fun _ => rfl) hs
  rw [hcode] at hvoltage hregister
  exact ⟨rfl, rfl, _, by rw [← hcode]; rfl, hvoltageFirst, hvoltage, hregisterFirst, hregister⟩

end Sys2Proof.Machine
end

section
/-!
Scope. The plan of a ramp (46_ramp_sequencer.md R230, R231): its deltas, and the voltages its steps write (R234,
70_reset_and_hazards.md R301).
-/

namespace Sys2Proof.Machine

/-- A plan with steps has its delta on each active channel and none elsewhere. -/
theorem exists_rampDeltas {plan : Plan} (h : plan.stepCount ≠ 0) :
    ∃ dv, rampDeltas plan = some dv ∧ ∀ c : DacChan, dv[c] =
      if plan.activeDacMask.getLsbD c.val then
        some ((plan.vFinal[c] - plan.vInitial[c]) / (plan.stepCount.toNat : Rat))
      else none :=
  ⟨_, if_neg h, fun c => by simp⟩

theorem mem_dacChansOf {mask : BitVec 4} {c : DacChan} : c ∈ dacChansOf mask ↔ mask.getLsbD c.val = true := by
  have hall : c ∈ allDacChans := by fin_cases c <;> decide
  simp [dacChansOf, hall]

/-- The voltage a step writes is that of the plan alone. -/
theorem stepVoltage_eq_planVoltage {plan : Plan} {regs : RampRegs} {c : DacChan}
    (hdv : rampDeltas plan = some regs.dv) (hc : plan.activeDacMask.getLsbD c.val = true) :
    stepVoltage plan regs c = planVoltage plan regs.step c := by
  have hsteps := stepCount_ne_zero hdv
  obtain ⟨dv, hplan, hdelta⟩ := exists_rampDeltas hsteps
  obtain rfl : dv = regs.dv := Option.some_inj.mp (hplan.symm.trans hdv)
  rw [stepVoltage, planVoltage, hdelta, if_pos hc, Option.getD_some]

theorem stepCount_pos_iff {plan : Plan} : 0 < plan.stepCount.toNat ↔ plan.stepCount ≠ 0 :=
  Nat.pos_iff_ne_zero.trans (not_congr (by rw [← BitVec.toNat_inj]; rfl))

theorem planVoltage_stepCount {plan : Plan} (h : plan.stepCount ≠ 0) (c : DacChan) :
    planVoltage plan plan.stepCount.toNat c = plan.vFinal[c] := by
  have hne : (plan.stepCount.toNat : Rat) ≠ 0 :=
    Nat.cast_ne_zero.mpr (stepCount_pos_iff.mpr h).ne'
  rw [planVoltage, mul_div_cancel₀ _ hne, add_sub_cancel]

/-- A step's voltage lies between the endpoints: it moves from the first to the second by the part `k / stepCount`. -/
theorem abs_planVoltage_le {plan : Plan} {c : DacChan} {k : Nat} (hk : k ≤ plan.stepCount.toNat) {bound : Rat}
    (hinitial : |plan.vInitial[c]| ≤ bound) (hfinal : |plan.vFinal[c]| ≤ bound) :
    |planVoltage plan k c| ≤ bound := by
  have hpart : (k : Rat) / plan.stepCount.toNat ∈ Set.Icc (0 : Rat) 1 :=
    ⟨by positivity, div_le_one_of_le₀ (by exact_mod_cast hk) (Nat.cast_nonneg _)⟩
  have hbetween := (convex_Icc (-bound) bound).add_smul_sub_mem (abs_le.mp hinitial) (abs_le.mp hfinal) hpart
  rw [smul_eq_mul, div_mul_comm, mul_comm] at hbetween
  exact abs_le.mpr hbetween

/-- Settles O47: `stepVoltage_eq_planVoltage`, and the voltages of the plan at the last step and between. -/
theorem interpolationStaysBetweenEndpoints : Obligations.InterpolationStaysBetweenEndpoints := by
  unfold Obligations.InterpolationStaysBetweenEndpoints
  rintro plan regs c ⟨hdv, -⟩ hc
  have hsteps := stepCount_ne_zero hdv
  rw [stepVoltage_eq_planVoltage hdv hc]
  refine ⟨rfl, fun hlast => hlast ▸ planVoltage_stepCount hsteps c, fun hinitial hfinal hle => ?inRange⟩
  case inRange =>
    exact Bool.eq_false_iff.mpr fun h => (overrange_iff.mp h).not_ge (abs_planVoltage_le hle hinitial hfinal)

/-- Settles O39: an operation without events completes at once, with `rampDeltas`. -/
theorem rampPlanComputesDeltas : Obligations.RampPlanComputesDeltas := by
  unfold Obligations.RampPlanComputesDeltas
  intro s plan hs
  refine ⟨rfl, fun hzero => ?rejected, fun hsteps => ?accepted⟩
  case rejected =>
    rw [exec, execRampPlan, rampDeltas_none.mpr hzero]
    exact completing_idle hs
  case accepted =>
    obtain ⟨dv, hplan, hdelta⟩ := exists_rampDeltas hsteps
    refine ⟨dv, ?_, hdelta⟩
    rw [exec, execRampPlan, hplan]
    exact completing_idle hs

end Sys2Proof.Machine
end

section
/-!
Scope. Priming and the steps of a ramp (46_ramp_sequencer.md R232 to R235) for any operation that has them, as the
big steps `bigPrime` and `bigStep`; `RAMP_PRIME`.
-/

namespace Sys2Proof.Machine

/-! ### Runs of one operation that come to an outcome -/

/-- Some step of a run of `i` from `s` has the outcome `o`. -/
def RunsTo (i : Instr) (s : State) (o : Outcome) : Prop := ∃ n, execs i n s = o

/-- A run that comes to a state goes on with the operation's next event there. -/
theorem RunsTo.next {i : Instr} {s t : State} {o : Outcome} (h : RunsTo i s (.next t)) (ho : exec i t = o) :
    RunsTo i s o := by
  obtain ⟨n, hn⟩ := h
  exact ⟨n + 1, (execs_succ_of_next hn).trans ho⟩

theorem RunsTo.trans {i : Instr} {s t : State} {o : Outcome} (h : RunsTo i s (.next t)) (ho : RunsTo i t o) :
    RunsTo i s o := by
  obtain ⟨n, hn⟩ := h
  obtain ⟨m, hm⟩ := ho
  exact ⟨n + m, (execs_add_of_next hn m).trans hm⟩

/-! ### The first overrange (R239) -/

/-- The ramp registers after a write that was rejected for its voltage, if it was: the first error is kept. -/
def RampRegs.failIf (regs : RampRegs) (rejected : Bool) : RampRegs :=
  if rejected then { regs with rampErr := regs.rampErr.keepFirst .voltageOverrange } else regs

@[simp] theorem failIf_false (regs : RampRegs) : regs.failIf false = regs := rfl

@[simp] theorem failIf_dv (regs : RampRegs) (b : Bool) : (regs.failIf b).dv = regs.dv := by
  cases b <;> rfl

@[simp] theorem failIf_step (regs : RampRegs) (b : Bool) : (regs.failIf b).step = regs.step := by
  cases b <;> rfl

/-- Of two rejected writes the second leaves nothing. -/
@[simp] theorem failIf_true_failIf (regs : RampRegs) (b : Bool) : (regs.failIf true).failIf b = regs.failIf true := by
  obtain ⟨dv, step, err⟩ := regs
  cases b <;> cases err <;> rfl

theorem failIf_rampErr_of_none {regs : RampRegs} (h : regs.rampErr = .none) (b : Bool) :
    (regs.failIf b).rampErr = if b then .voltageOverrange else .none := by
  cases b <;> simp [RampRegs.failIf, Err.keepFirst, h]

theorem skipOverrange_of_overrange {volts : DacChan → Volts} {c : DacChan} (h : overrange (volts c) = true)
    (err : Err) (rest : List DacChan) :
    skipOverrange volts err (c :: rest) = skipOverrange volts (err.keepFirst .voltageOverrange) rest :=
  if_pos h

theorem skipOverrange_of_inRange {volts : DacChan → Volts} {c : DacChan} (h : overrange (volts c) = false)
    (err : Err) (rest : List DacChan) : skipOverrange volts err (c :: rest) = (err, some (c, rest)) :=
  if_neg (by simp [h])

/-! ### `setVoltage` as one step (45 R211) -/

theorem bigSetVoltage_of_overrange {v : Volts} (h : overrange v = true) (pulse : Bool) (s : State) (c : DacChan) :
    bigSetVoltage pulse s c v = s :=
  if_pos h

theorem bigSetVoltage_pulse {v : Volts} (h : overrange v = false) (s : State) (c : DacChan) :
    bigSetVoltage true s c v = bigPulse (s.writeDac c (codeOfVolts s.cfg.rounding v)) := by
  simp [bigSetVoltage, h]

theorem bigSetVoltage_noPulse {v : Volts} (h : overrange v = false) (s : State) (c : DacChan) :
    bigSetVoltage false s c v = s.writeDac c (codeOfVolts s.cfg.rounding v) := by
  simp [bigSetVoltage, h]

/-! ### Priming (R232) -/

theorem bigPrime_cons (vInitial : Vector Volts 4) (c : DacChan) (rest : List DacChan) (s : State) :
    bigPrime vInitial (c :: rest) s = bigPrime vInitial rest (bigSetVoltage true s c vInitial[c]) := rfl

section Priming

variable {i : Instr} {vInitial : Vector Volts 4} {primed : Nat → RampRegs → State → Outcome}

theorem primeFrom_of_overrange {c : DacChan} (h : overrange vInitial[c] = true) (k : Nat) (regs : RampRegs)
    (rest : List DacChan) (s : State) : primeFrom i vInitial (primed k) k regs (c :: rest) s =
      primeFrom i vInitial (primed k) k (regs.failIf true) rest s := by
  rw [primeFrom, skipOverrange_of_overrange (volts := fun c => vInitial[c]) h]
  rfl

theorem primeFrom_of_inRange {c : DacChan} (h : overrange vInitial[c] = false) (k : Nat) (regs : RampRegs)
    (rest : List DacChan) (s : State) : primeFrom i vInitial (primed k) k regs (c :: rest) s =
      .next ((s.writeDac c (codeOfVolts s.cfg.rounding vInitial[c])).pause i (k + 1) (.primeWrote regs rest)) := by
  rw [primeFrom, skipOverrange_of_inRange (volts := fun c => vInitial[c]) h]

/-- When every channel left is out of range, priming is done, with one overrange noted if there was a channel. -/
theorem primeFrom_of_all_overrange {todo : List DacChan} (h : ∀ c ∈ todo, overrange vInitial[c] = true) (k : Nat)
    (regs : RampRegs) (s : State) :
    primeFrom i vInitial (primed k) k regs todo s = primed k (regs.failIf !todo.isEmpty) s := by
  induction todo generalizing regs with
  | nil => rfl
  | cons c rest ih =>
    obtain ⟨hc, hrest⟩ := List.forall_mem_cons.mp h
    rw [primeFrom_of_overrange hc, ih hrest, failIf_true_failIf]
    rfl

/-- At the points of priming, the operation `i` goes on as `prime` does, and at its end with `primed`. -/
structure RunsPrime (i : Instr) (vInitial : Vector Volts 4) (primed : Nat → RampRegs → State → Outcome) : Prop where
  wrote : ∀ k regs todo (s : State), exec i (s.pause i k (.primeWrote regs todo)) =
    .next ((s.setLatch .low).pause i (k + 1) (.primeLowered regs todo))
  lowered : ∀ k regs todo (s : State), exec i (s.pause i k (.primeLowered regs todo)) =
    .next ((s.setLatch .high).pause i (k + 1) (.primeNext regs todo))
  next : ∀ k regs todo (s : State), exec i (s.pause i k (.primeNext regs todo)) =
    primeFrom i vInitial (primed k) k regs todo s

/-- Priming takes three steps for each channel in range; the step after them is that of `primed`. -/
theorem RunsPrime.execs_primed (hi : RunsPrime i vInitial primed) {todo : List DacChan} {n k : Nat}
    {regs : RampRegs} {s s₀ : State} (h : execs i n s₀ = primeFrom i vInitial (primed k) k regs todo s) :
    ∃ k', execs i (n + 3 * (todo.filter fun c => !overrange vInitial[c]).length) s₀ =
      primed k' (regs.failIf (todo.any fun c => overrange vInitial[c])) (bigPrime vInitial todo s) := by
  induction todo generalizing n k regs s with
  | nil => exact ⟨k, h⟩
  | cons c rest ih =>
    cases hc : overrange vInitial[c] with
    | true =>
      rw [primeFrom_of_overrange hc] at h
      obtain ⟨k', hk'⟩ := ih h
      rw [failIf_true_failIf] at hk'
      refine ⟨k', ?_⟩
      rwa [List.filter_cons_of_neg (by rw [hc]; decide), List.any_cons, hc, Bool.true_or, bigPrime_cons,
        bigSetVoltage_of_overrange hc]
    | false =>
      rw [primeFrom_of_inRange hc] at h
      have hwrote := (execs_succ_of_next h).trans (hi.wrote ..)
      have hlowered := (execs_succ_of_next hwrote).trans (hi.lowered ..)
      have hnext := (execs_succ_of_next hlowered).trans (hi.next ..)
      obtain ⟨k', hk'⟩ := ih hnext
      refine ⟨k', ?_⟩
      rwa [List.filter_cons_of_pos (by rw [hc]; rfl), List.length_cons, Nat.mul_succ, Nat.add_comm (3 * _) 3,
        ← Nat.add_assoc, List.any_cons, hc, Bool.false_or, bigPrime_cons, bigSetVoltage_pulse hc]

theorem RunsPrime.runsTo_primed (hi : RunsPrime i vInitial primed) {todo : List DacChan} {k : Nat}
    {regs : RampRegs} {s s₀ : State} (h : exec i s₀ = primeFrom i vInitial (primed k) k regs todo s) :
    ∃ k', RunsTo i s₀
      (primed k' (regs.failIf (todo.any fun c => overrange vInitial[c])) (bigPrime vInitial todo s)) := by
  obtain ⟨k', hk'⟩ := hi.execs_primed ((execs_one i s₀).trans h)
  exact ⟨k', _, hk'⟩

/-- Priming does not depend on where the operation rests if its end does not. -/
theorem primeFrom_pause (hprimed : ∀ k regs s j m p, primed k regs (s.pause j m p) = primed k regs s) (k : Nat)
    (regs : RampRegs) (todo : List DacChan) (s : State) (j : Instr) (m : Nat) (p : Point) :
    primeFrom i vInitial (primed k) k regs todo (s.pause j m p) = primeFrom i vInitial (primed k) k regs todo s := by
  rw [primeFrom, primeFrom]
  split
  · exact hprimed ..
  · rfl

end Priming

/-! ### `RAMP_PRIME` (R233) -/

/-- The end of `RAMP_PRIME`. -/
def primeEnd (_ : Nat) (regs : RampRegs) (s : State) : Outcome := .next (s.complete regs.rampErr .unit)

theorem rampPrime_runsPrime (mask : BitVec 4) (vInitial : Vector Volts 4) :
    RunsPrime (.rampPrime mask vInitial) vInitial primeEnd where
  wrote k regs todo s := by
    rw [exec, execRampPrime, running_pause]
    rfl
  lowered k regs todo s := by
    rw [exec, execRampPrime, running_pause]
    rfl
  next k regs todo s := by
    rw [exec, execRampPrime, running_pause]
    exact primeFrom_pause (primed := primeEnd) (fun _ _ _ _ _ _ => rfl) ..

/-- Settles O40: `RunsPrime.execs_primed` from the operation's first step. -/
theorem rampPrimeCommitsEachChannel : Obligations.RampPrimeCommitsEachChannel := by
  unfold Obligations.RampPrimeCommitsEachChannel
  intro s mask vInitial hs
  obtain ⟨t, hfirst, -⟩ := exec_proceeds_of_idle (i := .rampPrime mask vInitial) hs rfl
  have hstart : execs (.rampPrime mask vInitial) 1 s = primeFrom (.rampPrime mask vInitial) vInitial (primeEnd 0) 0
      ⟨Vector.replicate 4 none, 0, .none⟩ (dacChansOf mask) s := by
    rw [execs_one, exec, execRampPrime, running_idle hs]
    rfl
  obtain ⟨k, hend⟩ := (rampPrime_runsPrime mask vInitial).execs_primed hstart
  refine ⟨rfl, ⟨t, hfirst⟩, ?_⟩
  rw [Nat.add_comm, hend, primeEnd, failIf_rampErr_of_none rfl]

/-! ### The boundary before a step (R235) -/

section Boundary

variable {i : Instr} {plan : Plan} {passes : BitVec 32} {k : Nat} {regs : RampRegs} {s : State}

theorem stepBoundary_last (h : plan.stepCount.toNat < regs.step) :
    stepBoundary i plan passes k regs s = .next (s.endRamp regs.rampErr s.rampCancelled passes) :=
  if_pos h

theorem stepBoundary_cancelled (h : regs.step ≤ plan.stepCount.toNat) (hcancel : s.cancelBit = true) :
    stepBoundary i plan passes k regs s =
      .next (({ s with rampCancelled := true } : State).endRamp regs.rampErr true passes) :=
  (if_neg h.not_gt).trans (if_pos hcancel)

theorem stepBoundary_step (h : regs.step ≤ plan.stepCount.toNat) (hcancel : s.cancelBit = false) :
    stepBoundary i plan passes k regs s = stepFrom i plan k regs (dacChansOf plan.activeDacMask) s :=
  (if_neg h.not_gt).trans (if_neg (by simp [hcancel]))

end Boundary

/-! ### Steps (R234) -/

@[simp] theorem stepVoltage_failIf (plan : Plan) (regs : RampRegs) (b : Bool) :
    stepVoltage plan (regs.failIf b) = stepVoltage plan regs := by
  cases b <;> rfl

section Steps

variable {i : Instr} {plan : Plan}

theorem stepFrom_nil (k : Nat) (regs : RampRegs) (s : State) :
    stepFrom i plan k regs [] s = .next ((s.setLatch .low).pause i (k + 1) (.stepLowered regs)) := rfl

theorem stepFrom_of_overrange {regs : RampRegs} {c : DacChan} (h : overrange (stepVoltage plan regs c) = true)
    (k : Nat) (rest : List DacChan) (s : State) :
    stepFrom i plan k regs (c :: rest) s = stepFrom i plan k (regs.failIf true) rest s := by
  rw [stepFrom, skipOverrange_of_overrange h]
  rfl

theorem stepFrom_of_inRange {regs : RampRegs} {c : DacChan} (h : overrange (stepVoltage plan regs c) = false)
    (k : Nat) (rest : List DacChan) (s : State) : stepFrom i plan k regs (c :: rest) s =
      .next ((s.writeDac c (codeOfVolts s.cfg.rounding (stepVoltage plan regs c))).pause i (k + 1)
        (.stepNext regs rest)) := by
  rw [stepFrom, skipOverrange_of_inRange h]

/-- At the points of a step, the operation `i` goes on as `step` does. -/
structure RunsStep (i : Instr) (plan : Plan) : Prop where
  next : ∀ k regs todo (s : State), exec i (s.pause i k (.stepNext regs todo)) = stepFrom i plan k regs todo s
  lowered : ∀ k regs (s : State), exec i (s.pause i k (.stepLowered regs)) =
    .next (({ s.setLatch .high with rampStepsDone := BitVec.ofNat 32 regs.step } : State).pause i (k + 1)
      (.stepRaised regs))
  raised : ∀ k regs (s : State), exec i (s.pause i k (.stepRaised regs)) =
    .next ((s.sleep plan.stepDelay).pause i (k + 1) (.slept regs))

/-- The writes of a step go to each channel in range. -/
theorem RunsStep.runsTo_written (hi : RunsStep i plan) {todo : List DacChan} {k : Nat} {regs : RampRegs}
    {s s₀ : State} (h : RunsTo i s₀ (stepFrom i plan k regs todo s)) :
    ∃ k', RunsTo i s₀ (stepFrom i plan k' (regs.failIf (todo.any fun c => overrange (stepVoltage plan regs c))) []
      (todo.foldl (fun s c => bigSetVoltage false s c (stepVoltage plan regs c)) s)) := by
  induction todo generalizing k regs s with
  | nil => exact ⟨k, h⟩
  | cons c rest ih =>
    rw [List.foldl_cons, List.any_cons]
    cases hc : overrange (stepVoltage plan regs c) with
    | true =>
      rw [stepFrom_of_overrange hc] at h
      obtain ⟨k', hk'⟩ := ih h
      exact ⟨k', by simpa [bigSetVoltage_of_overrange hc] using hk'⟩
    | false =>
      rw [stepFrom_of_inRange hc] at h
      rw [bigSetVoltage_noPulse hc, Bool.false_or]
      exact ih (h.next (hi.next ..))

/-- From a boundary with a step left and no cancel pending, the operation makes the step and rests behind its sleep. -/
theorem RunsStep.runsTo_slept (hi : RunsStep i plan) {passes : BitVec 32} {k : Nat} {regs : RampRegs} {s s₀ : State}
    (hdv : rampDeltas plan = some regs.dv) (hstep : regs.step ≤ plan.stepCount.toNat)
    (hcancel : s.cancelBit = false) (h : RunsTo i s₀ (stepBoundary i plan passes k regs s)) :
    ∃ k', RunsTo i s₀ (.next ((bigStep plan regs.step s).pause i k' (.slept (regs.failIf
      ((dacChansOf plan.activeDacMask).any fun c => overrange (planVoltage plan regs.step c)))))) := by
  have hvoltage (c : DacChan) (hc : c ∈ dacChansOf plan.activeDacMask) :
      stepVoltage plan regs c = planVoltage plan regs.step c :=
    stepVoltage_eq_planVoltage hdv (mem_dacChansOf.mp hc)
  have hwrites : (dacChansOf plan.activeDacMask).foldl
      (fun s c => bigSetVoltage false s c (stepVoltage plan regs c)) s =
      (dacChansOf plan.activeDacMask).foldl
        (fun s c => bigSetVoltage false s c (planVoltage plan regs.step c)) s :=
    List.foldl_ext _ _ _ fun s c hc => by rw [hvoltage c hc]
  have hany : (dacChansOf plan.activeDacMask).any (fun c => overrange (stepVoltage plan regs c)) =
      (dacChansOf plan.activeDacMask).any fun c => overrange (planVoltage plan regs.step c) := by
    rw [Bool.eq_iff_iff, List.any_eq_true, List.any_eq_true]
    exact exists_congr fun c => and_congr_right fun hc => by rw [hvoltage c hc]
  rw [stepBoundary_step hstep hcancel] at h
  obtain ⟨k', hwritten⟩ := hi.runsTo_written h
  rw [hwrites, hany, stepFrom_nil] at hwritten
  have hraised := hwritten.next (hi.lowered ..)
  rw [failIf_step] at hraised
  exact ⟨_, hraised.next (hi.raised ..)⟩

end Steps

end Sys2Proof.Machine
end

section
/-!
Scope. What priming and the steps of a ramp leave unchanged (46_ramp_sequencer.md R232, R234), and the error a ramp
reports (R239).
-/

namespace Sys2Proof.Machine

/-! ### What no part of a ramp before its end writes -/

/-- The parameters and the cancel fields: no event of a ramp before its `Complete` writes them. -/
def State.control (s : State) : Config × Bool × Bool := (s.cfg, s.cancelReq, s.rampCancelled)

theorem cfg_eq_of_control {s t : State} (h : s.control = t.control) : s.cfg = t.cfg :=
  congrArg Prod.fst h

theorem rampCancelled_eq_of_control {s t : State} (h : s.control = t.control) : s.rampCancelled = t.rampCancelled :=
  congrArg (·.2.2) h

theorem cancelBit_eq_of_control {s t : State} (h : s.control = t.control) : s.cancelBit = t.cancelBit :=
  congrArg (fun c : Config × Bool × Bool => c.1.cancelSupported && c.2.1) h

/-- What each step of a fold keeps, the fold keeps. -/
theorem foldl_keeps {α β : Type} {view : State → α} {f : State → β → State} (h : ∀ s b, view (f s b) = view s)
    (l : List β) (s : State) : view (l.foldl f s) = view s := by
  induction l generalizing s with
  | nil => rfl
  | cons b l ih => exact (ih _).trans (h s b)

@[simp] theorem bigSetVoltage_control (pulse : Bool) (s : State) (c : DacChan) (v : Volts) :
    (bigSetVoltage pulse s c v).control = s.control := by
  unfold bigSetVoltage
  split
  · rfl
  · split <;> rfl

@[simp] theorem bigSetVoltage_levelAnswers (pulse : Bool) (s : State) (c : DacChan) (v : Volts) :
    (bigSetVoltage pulse s c v).levelAnswers = s.levelAnswers := by
  unfold bigSetVoltage
  split
  · rfl
  · split <;> rfl

@[simp] theorem bigPrime_control (vInitial : Vector Volts 4) (chans : List DacChan) (s : State) :
    (bigPrime vInitial chans s).control = s.control :=
  foldl_keeps (fun _ _ => bigSetVoltage_control ..) chans s

@[simp] theorem bigPrime_levelAnswers (vInitial : Vector Volts 4) (chans : List DacChan) (s : State) :
    (bigPrime vInitial chans s).levelAnswers = s.levelAnswers :=
  foldl_keeps (fun _ _ => bigSetVoltage_levelAnswers ..) chans s

/-- After its writes a step writes neither the control fields nor the levels to come. -/
theorem pulse_sleep_keeps (done ms : BitVec 32) (s : State) :
    (({ bigPulse s with rampStepsDone := done } : State).sleep ms).control = s.control ∧
      (({ bigPulse s with rampStepsDone := done } : State).sleep ms).levelAnswers = s.levelAnswers :=
  ⟨rfl, rfl⟩

@[simp] theorem bigStep_control (plan : Plan) (k : Nat) (s : State) : (bigStep plan k s).control = s.control := by
  obtain ⟨hcontrol, -⟩ := pulse_sleep_keeps (BitVec.ofNat 32 k) plan.stepDelay
    ((dacChansOf plan.activeDacMask).foldl (fun s c => bigSetVoltage false s c (planVoltage plan k c)) s)
  exact hcontrol.trans (foldl_keeps (fun _ _ => bigSetVoltage_control ..) (dacChansOf plan.activeDacMask) s)

@[simp] theorem bigStep_levelAnswers (plan : Plan) (k : Nat) (s : State) :
    (bigStep plan k s).levelAnswers = s.levelAnswers := by
  obtain ⟨-, hlevels⟩ := pulse_sleep_keeps (BitVec.ofNat 32 k) plan.stepDelay
    ((dacChansOf plan.activeDacMask).foldl (fun s c => bigSetVoltage false s c (planVoltage plan k c)) s)
  exact hlevels.trans (foldl_keeps (fun _ _ => bigSetVoltage_levelAnswers ..) (dacChansOf plan.activeDacMask) s)

@[simp] theorem bigSteps_control (plan : Plan) (n : Nat) (s : State) : (bigSteps plan n s).control = s.control := by
  induction n with
  | zero => rfl
  | succ n ih => exact (bigStep_control ..).trans ih

/-- The state of an accepted ramp at the end of its priming. -/
def State.afterPriming (plan : Plan) (stepping : RampState) (s : State) : State :=
  (bigPrime plan.vInitial (dacChansOf plan.activeDacMask) s.beginRamp).primed stepping

@[simp] theorem afterPriming_control (plan : Plan) (stepping : RampState) (s : State) :
    (s.afterPriming plan stepping).control = s.beginRamp.control :=
  bigPrime_control ..

@[simp] theorem afterPriming_levelAnswers (plan : Plan) (stepping : RampState) (s : State) :
    (s.afterPriming plan stepping).levelAnswers = s.levelAnswers :=
  bigPrime_levelAnswers (s := s.beginRamp) ..

/-! ### The error of a ramp (R239) -/

theorem rampOverrange_zero {plan : Plan} : RampOverrange plan 0 ↔
    ((dacChansOf plan.activeDacMask).any fun c => overrange plan.vInitial[c]) = true := by
  rw [List.any_eq_true]
  refine exists_congr fun c => and_congr_right fun _ => or_iff_left ?_
  rintro ⟨k, hpos, hzero, -⟩
  omega

theorem rampOverrange_succ {plan : Plan} {n : Nat} : RampOverrange plan (n + 1) ↔ RampOverrange plan n ∨
    ((dacChansOf plan.activeDacMask).any fun c => overrange (planVoltage plan (n + 1) c)) = true := by
  rw [List.any_eq_true]
  constructor
  · rintro ⟨c, hc, hprime | ⟨k, hpos, hle, hk⟩⟩
    · exact .inl ⟨c, hc, .inl hprime⟩
    · obtain hle | rfl := Nat.le_succ_iff.mp hle
      · exact .inl ⟨c, hc, .inr ⟨k, hpos, hle, hk⟩⟩
      · exact .inr ⟨c, hc, hk⟩
  · rintro (⟨c, hc, hprime | ⟨k, hpos, hle, hk⟩⟩ | ⟨c, hc, hlast⟩)
    · exact ⟨c, hc, .inl hprime⟩
    · exact ⟨c, hc, .inr ⟨k, hpos, Nat.le_succ_of_le hle, hk⟩⟩
    · exact ⟨c, hc, .inr ⟨n + 1, Nat.succ_pos n, le_rfl, hlast⟩⟩

/-- The first overrange of a ramp is the error it reports. -/
theorem isRampErr_failIf {plan : Plan} {m n : Nat} {regs : RampRegs} {rejected : Bool}
    (h : IsRampErr plan m regs.rampErr) (hiff : RampOverrange plan n ↔ RampOverrange plan m ∨ rejected = true) :
    IsRampErr plan n (regs.failIf rejected).rampErr := by
  obtain ⟨hover, herr⟩ | ⟨hnone, herr⟩ := h
  · refine .inl ⟨hiff.mpr (.inl hover), ?_⟩
    cases rejected <;> simp [RampRegs.failIf, Err.keepFirst, herr]
  · rw [failIf_rampErr_of_none herr, IsRampErr, hiff]
    cases rejected <;> simp [hnone]

/-- The ramp registers after priming and `n` steps: the deltas of the plan and the first error so far. -/
structure RampRegs.AfterSteps (plan : Plan) (n : Nat) (regs : RampRegs) : Prop where
  deltas : rampDeltas plan = some regs.dv
  err : IsRampErr plan n regs.rampErr

theorem afterSteps_primed {plan : Plan} {dv : Vector (Option Volts) 4} (h : rampDeltas plan = some dv) :
    ((⟨dv, 0, .none⟩ : RampRegs).failIf
      ((dacChansOf plan.activeDacMask).any fun c => overrange plan.vInitial[c])).AfterSteps plan 0 where
  deltas := by rwa [failIf_dv]
  err := by
    rw [failIf_rampErr_of_none rfl, IsRampErr, rampOverrange_zero]
    cases (dacChansOf plan.activeDacMask).any fun c => overrange plan.vInitial[c] <;> simp

theorem RampRegs.AfterSteps.step {plan : Plan} {n : Nat} {regs : RampRegs} (h : regs.AfterSteps plan n) (k : Nat) :
    (({ regs with step := k } : RampRegs).failIf
      ((dacChansOf plan.activeDacMask).any fun c => overrange (planVoltage plan (n + 1) c))).AfterSteps plan (n + 1)
    where
  deltas := by
    rw [failIf_dv]
    exact h.deltas
  err := isRampErr_failIf (regs := { regs with step := k }) h.err rampOverrange_succ

/-! ### From boundary to boundary -/

/-- A run of the ramp `i` from `s₀` comes to the boundary behind step `n` (for 0 behind the priming), in the state
`u`. -/
def RunsToBoundary (i : Instr) (plan : Plan) (passes : BitVec 32) (s₀ : State) (n : Nat) (u : State) : Prop :=
  ∃ (k : Nat) (regs : RampRegs), regs.AfterSteps plan n ∧
    RunsTo i s₀ (stepBoundary i plan passes k { regs with step := n + 1 } u)

section Boundary

variable {i : Instr} {plan : Plan} {passes : BitVec 32} {s₀ u : State} {n : Nat}

theorem RunsToBoundary.ends (h : RunsToBoundary i plan passes s₀ plan.stepCount.toNat u) :
    ∃ err, IsRampErr plan plan.stepCount.toNat err ∧ RunsTo i s₀ (.next (u.endRamp err u.rampCancelled passes)) := by
  obtain ⟨k, regs, hregs, hrun⟩ := h
  rw [stepBoundary_last (Nat.lt_succ_self _)] at hrun
  exact ⟨_, hregs.err, hrun⟩

theorem RunsToBoundary.cancels (h : RunsToBoundary i plan passes s₀ n u) (hn : n < plan.stepCount.toNat)
    (hcancel : u.cancelBit = true) : ∃ err, IsRampErr plan n err ∧
      RunsTo i s₀ (.next (({ u with rampCancelled := true } : State).endRamp err true passes)) := by
  obtain ⟨k, regs, hregs, hrun⟩ := h
  rw [stepBoundary_cancelled (regs := { regs with step := n + 1 }) hn hcancel] at hrun
  exact ⟨_, hregs.err, hrun⟩

/-- With a step left and no cancel pending, the ramp makes the step and rests behind its sleep. -/
theorem RunsToBoundary.slept (h : RunsToBoundary i plan passes s₀ n u) (hi : RunsStep i plan)
    (hn : n < plan.stepCount.toNat) (hcancel : u.cancelBit = false) :
    ∃ (k : Nat) (regs : RampRegs), regs.AfterSteps plan (n + 1) ∧ regs.step = n + 1 ∧
      RunsTo i s₀ (.next ((bigStep plan (n + 1) u).pause i k (.slept regs))) := by
  obtain ⟨k, regs, hregs, hrun⟩ := h
  obtain ⟨k', hslept⟩ := hi.runsTo_slept (regs := { regs with step := n + 1 }) hregs.deltas hn hcancel hrun
  exact ⟨k', _, hregs.step (n + 1), failIf_step .., hslept⟩

end Boundary

end Sys2Proof.Machine
end

section
/-!
Scope. The simple ramp (46_ramp_sequencer.md R236): priming, the steps one after the other, and the boundaries where a
pending cancel ends it (R235).
-/

namespace Sys2Proof.Machine

/-! ### A step does not depend on where the operation rests -/

theorem stepFrom_pause (i : Instr) (plan : Plan) (k : Nat) (regs : RampRegs) (todo : List DacChan) (s : State)
    (j : Instr) (m : Nat) (p : Point) :
    stepFrom i plan k regs todo (s.pause j m p) = stepFrom i plan k regs todo s := rfl

theorem stepBoundary_pause (i : Instr) (plan : Plan) (passes : BitVec 32) (k : Nat) (regs : RampRegs) (s : State)
    (j : Instr) (m : Nat) (p : Point) :
    stepBoundary i plan passes k regs (s.pause j m p) = stepBoundary i plan passes k regs s := rfl

/-! ### The parts of `RAMP_SIMPLE` -/

theorem rampSimple_runsPrime (plan : Plan) : RunsPrime (.rampSimple plan) plan.vInitial (simplePrimed plan) where
  wrote k regs todo s := by
    rw [exec, execRampSimple, running_pause]
    rfl
  lowered k regs todo s := by
    rw [exec, execRampSimple, running_pause]
    rfl
  next k regs todo s := by
    rw [exec, execRampSimple, running_pause]
    exact primeFrom_pause (primed := simplePrimed plan) (fun _ _ _ _ _ _ => rfl) ..

theorem rampSimple_runsStep (plan : Plan) : RunsStep (.rampSimple plan) plan where
  next k regs todo s := by
    rw [exec, execRampSimple, running_pause]
    exact stepFrom_pause ..
  lowered k regs s := by
    rw [exec, execRampSimple, running_pause]
    rfl
  raised k regs s := by
    rw [exec, execRampSimple, running_pause]
    rfl

/-- Behind its sleep a simple ramp stands at the boundary before the next step. -/
theorem exec_rampSimple_slept {plan : Plan} {s : State} {k : Nat} {regs : RampRegs}
    (hs : s.seqpos = .busy (.rampSimple plan) k (.slept regs)) : exec (.rampSimple plan) s =
      stepBoundary (.rampSimple plan) plan 0 k { regs with step := regs.step + 1 } s := by
  rw [exec, execRampSimple, running_busy hs]

/-- Between two pulses of its priming a simple ramp goes on with the channels left. -/
theorem exec_rampSimple_primeNext {plan : Plan} {s : State} {k : Nat} {regs : RampRegs} {todo : List DacChan}
    (hs : s.seqpos = .busy (.rampSimple plan) k (.primeNext regs todo)) : exec (.rampSimple plan) s =
      primeFrom (.rampSimple plan) plan.vInitial (simplePrimed plan k) k regs todo s := by
  rw [exec, execRampSimple, running_busy hs]
  rfl

theorem exec_rampSimple_rejected {plan : Plan} {s : State} (hs : s.seqpos = .idle) (h : plan.stepCount = 0) :
    exec (.rampSimple plan) s = .next (s.complete .invalidStepCount .unit) := by
  rw [exec, execRampSimple, running_idle hs]
  simp only [rampDeltas_none.mpr h]

/-! ### The whole ramp -/

section Run

variable {plan : Plan} {s : State}

/-- An accepted simple ramp comes to the boundary before step 1, its priming done. -/
theorem rampSimple_runsTo_firstBoundary (hs : s.seqpos = .idle) (hsteps : plan.stepCount ≠ 0) :
    RunsToBoundary (.rampSimple plan) plan 0 s 0 (s.afterPriming plan .steppingWithoutCapture) := by
  obtain ⟨dv, hdv, -⟩ := exists_rampDeltas hsteps
  have hstart : exec (.rampSimple plan) s = primeFrom (.rampSimple plan) plan.vInitial (simplePrimed plan 0) 0
      ⟨dv, 0, .none⟩ (dacChansOf plan.activeDacMask) s.beginRamp := by
    rw [exec, execRampSimple, running_idle hs]
    simp only [hdv]
  obtain ⟨k, hk⟩ := (rampSimple_runsPrime plan).runsTo_primed hstart
  exact ⟨k, _, afterSteps_primed hdv, hk⟩

/-- With no cancel pending a simple ramp comes from the boundary before step 1 to each later one. -/
theorem rampSimple_runsTo_boundary {u : State} (h : RunsToBoundary (.rampSimple plan) plan 0 s 0 u)
    (hcancel : u.cancelBit = false) {n : Nat} (hn : n ≤ plan.stepCount.toNat) :
    RunsToBoundary (.rampSimple plan) plan 0 s n (bigSteps plan n u) := by
  induction n with
  | zero => exact h
  | succ n ih =>
    have hquiet : (bigSteps plan n u).cancelBit = false :=
      (cancelBit_eq_of_control (bigSteps_control ..)).trans hcancel
    obtain ⟨k, regs, hregs, hstep, hslept⟩ := (ih (Nat.le_of_succ_le hn)).slept (rampSimple_runsStep plan) hn hquiet
    have hboundary := hslept.next ((exec_rampSimple_slept rfl).trans (stepBoundary_pause ..))
    rw [hstep] at hboundary
    exact ⟨k, regs, hregs, hboundary⟩

end Run

/-- Settles O41: priming by `rampSimple_runsTo_firstBoundary`, the steps by `rampSimple_runsTo_boundary`. -/
theorem rampSimpleRefinesItsSteps : Obligations.RampSimpleRefinesItsSteps := by
  unfold Obligations.RampSimpleRefinesItsSteps
  intro s plan hs
  refine ⟨rfl, exec_rampSimple_rejected hs, fun hsteps => ?accepted⟩
  case accepted =>
    obtain ⟨t, hfirst, -⟩ := exec_proceeds_of_idle (i := .rampSimple plan) hs rfl
    refine ⟨⟨t, hfirst⟩, ?_⟩
    have hprimed := rampSimple_runsTo_firstBoundary hs hsteps
    have hcontrol := afterPriming_control plan .steppingWithoutCapture s
    have hcancel := cancelBit_eq_of_control hcontrol
    cases hbit : s.cancelBit with
    | true =>
      obtain ⟨err, herr, n, hn⟩ := hprimed.cancels (stepCount_pos_iff.mpr hsteps) (hcancel.trans hbit)
      exact ⟨n, err, _, herr, rfl, hn⟩
    | false =>
      obtain ⟨err, herr, n, hn⟩ := (rampSimple_runsTo_boundary hprimed (hcancel.trans hbit) le_rfl).ends
      rw [rampCancelled_eq_of_control ((bigSteps_control ..).trans hcontrol)] at hn
      exact ⟨n, err, _, herr, rfl, hn⟩

end Sys2Proof.Machine
end

section
/-!
Scope. The buffered ramp (46_ramp_sequencer.md R237, R240): its passes as the big step `bigPass`, the baseline, the
steps with their passes, the abort of a pass that times out (R239), and the boundaries of both ramps (R235).
-/

namespace Sys2Proof.Machine

/-! ### What a pass leaves unchanged, and the levels it takes -/

@[simp] theorem iterate_pollDrdy_control (n : Nat) (s : State) : (State.pollDrdy^[n] s).control = s.control := by
  induction n generalizing s with
  | zero => rfl
  | succ n ih => exact ih s.pollDrdy

@[simp] theorem iterate_pollDrdy_rampPasses (n : Nat) (s : State) :
    (State.pollDrdy^[n] s).rampPasses = s.rampPasses := by
  induction n generalizing s with
  | zero => rfl
  | succ n ih => exact ih s.pollDrdy

@[simp] theorem bigCapture_control (pass : Nat) (s : State) (wait : AdcChan × Nat) :
    (bigCapture pass s wait).control = s.control :=
  iterate_pollDrdy_control (wait.2 + 1) { s with adcState := .awaitingDataReady }

@[simp] theorem bigPass_control (pass : Nat) (waits : Waits) (s : State) :
    (bigPass pass waits s).control = s.control :=
  foldl_keeps (bigCapture_control pass) waits s.sendMode

@[simp] theorem countPass_control (pass : Nat) (s : State) : (s.countPass pass).control = s.control := by
  simp [State.control]

@[simp] theorem bigCaptureSteps_control (plan : Plan) (waits : Nat → Waits) (n : Nat) (s : State) :
    (bigCaptureSteps plan waits n s).control = s.control := by
  induction n with
  | zero => rfl
  | succ n ih => simp [bigCaptureSteps, ih]

theorem bigCapture_levelAnswers (pass : Nat) {wait : AdcChan × Nat} {s : State} {rest : List Level}
    (h : s.levelAnswers = levelsOf [wait] ++ rest) : (bigCapture pass s wait).levelAnswers = rest :=
  bigReadings_levelAnswers (waits := [wait]) h

theorem levelsOf_cons_eq_append (wait : AdcChan × Nat) (waits : Waits) :
    levelsOf (wait :: waits) = levelsOf [wait] ++ levelsOf waits := by
  simp [levelsOf]

theorem foldl_bigCapture_levelAnswers (pass : Nat) {waits : Waits} {s : State} {rest : List Level}
    (h : s.levelAnswers = levelsOf waits ++ rest) : (waits.foldl (bigCapture pass) s).levelAnswers = rest := by
  induction waits generalizing s with
  | nil => exact h
  | cons wait waits ih =>
    rw [levelsOf_cons_eq_append, List.append_assoc] at h
    exact ih (bigCapture_levelAnswers pass h)

/-- A pass takes the levels of its waits from the environment. -/
theorem bigPass_levelAnswers (pass : Nat) {waits : Waits} {s : State} {rest : List Level}
    (h : s.levelAnswers = levelsOf waits ++ rest) : (bigPass pass waits s).levelAnswers = rest :=
  foldl_bigCapture_levelAnswers pass (s := s.sendMode) h

/-- The levels the polls of passes 1 to `n` read. -/
def levelsAfterBaseline (waits : Nat → Waits) (n : Nat) : List Level :=
  (List.range n).flatMap fun k => levelsOf (waits (k + 1))

theorem levelsAfterBaseline_succ (waits : Nat → Waits) (n : Nat) :
    levelsAfterBaseline waits (n + 1) = levelsAfterBaseline waits n ++ levelsOf (waits (n + 1)) := by
  simp [levelsAfterBaseline, List.range_succ]

theorem levelsOfPasses_eq (waits : Nat → Waits) (n : Nat) :
    levelsOfPasses waits n = levelsOf (waits 0) ++ levelsAfterBaseline waits n := by
  simp [levelsOfPasses, levelsAfterBaseline, List.range_succ_eq_map, List.flatMap_map]

theorem bigCaptureSteps_levelAnswers (plan : Plan) {waits : Nat → Waits} {n : Nat} {s : State} {rest : List Level}
    (h : s.levelAnswers = levelsAfterBaseline waits n ++ rest) :
    (bigCaptureSteps plan waits n s).levelAnswers = rest := by
  induction n generalizing rest with
  | zero => exact h
  | succ n ih =>
    rw [levelsAfterBaseline_succ, List.append_assoc] at h
    rw [bigCaptureSteps, State.countPass_levelAnswers]
    exact bigPass_levelAnswers (n + 1) ((bigStep_levelAnswers ..).trans (ih h))

/-! ### A capturing pass (R240) -/

/-- A ramp's pass reads the channels of waits that end low one after the other, with a capture record after each. -/
theorem RunsPass.runsTo_captured {i : Instr} {atEnd onTimeout : Pass → State → Outcome}
    (hi : RunsPass i atEnd onTimeout) {waits : Waits} {rest : List Level} {regs : RampRegs} {pass k : Nat}
    {s s₀ : State} (hlevels : s.levelAnswers = levelsOf waits ++ rest)
    (htime : ∀ w ∈ waits, timedOut s.cfg w.2 = false)
    (h : RunsTo i s₀ (.next (s.pause i k (.passNext (.ramp regs pass) (waits.map Prod.fst))))) :
    ∃ k', RunsTo i s₀ (.next ((waits.foldl (bigCapture pass) s).pause i k' (.passNext (.ramp regs pass) []))) := by
  induction waits generalizing s k with
  | nil => exact ⟨k, h⟩
  | cons wait waits ih =>
    obtain ⟨c, highs⟩ := wait
    obtain ⟨hfirst, hlater⟩ := List.forall_mem_cons.mp htime
    have hafter : (bigCapture pass s (c, highs)).levelAnswers = levelsOf waits ++ rest :=
      bigCapture_levelAnswers pass (by rw [hlevels, levelsOf_cons_eq_append, List.append_assoc])
    rw [levelsOf_cons, List.append_assoc] at hlevels
    have hread := h.trans ⟨_, hi.execs_channel k (.ramp regs pass) (waits.map Prod.fst) hlevels hfirst⟩
    have hcaptured := hread.next (hi _ (.passCaptured regs pass c _ _ _) _ ⟨trivial, rfl⟩)
    have hcfg : (bigCapture pass s (c, highs)).cfg = s.cfg := cfg_eq_of_control (bigCapture_control ..)
    exact ih hafter (by rwa [hcfg]) hcaptured

/-! ### The parts of `RAMP_BUFFERED` -/

/-- The end of a buffered ramp's pass, with the count of events taken from where the ramp rests. -/
def rampPassEnd (plan : Plan) (pass : Pass) (s : State) : Outcome :=
  match s.seqpos with
  | .busy _ k _ => endRampPass (.rampBuffered plan) plan k pass s
  | _ => .fault .badPosition

theorem rampBuffered_runsPrime (plan : Plan) : RunsPrime (.rampBuffered plan) plan.vInitial (bufferedPrimed plan) where
  wrote k regs todo s := by
    rw [exec, execRampBuffered, running_pause]
    rfl
  lowered k regs todo s := by
    rw [exec, execRampBuffered, running_pause]
    rfl
  next k regs todo s := by
    rw [exec, execRampBuffered, running_pause]
    exact primeFrom_pause (primed := bufferedPrimed plan) (fun _ _ _ _ _ _ => rfl) ..

theorem rampBuffered_runsStep (plan : Plan) : RunsStep (.rampBuffered plan) plan where
  next k regs todo s := by
    rw [exec, execRampBuffered, running_pause]
    exact stepFrom_pause ..
  lowered k regs s := by
    rw [exec, execRampBuffered, running_pause]
    rfl
  raised k regs s := by
    rw [exec, execRampBuffered, running_pause]
    rfl

theorem rampBuffered_runsPass (plan : Plan) : RunsPass (.rampBuffered plan) (rampPassEnd plan) abortRamp := by
  intro k p s hp
  rw [exec, execRampBuffered, running_pause]
  cases p with
  | passNext pass todo => cases todo <;> rfl
  | passPolling | passReady | passCaptured | passTimedOut => rfl
  | _ => exact hp.elim

/-- Behind its sleep a buffered ramp starts the pass of its step. -/
theorem exec_rampBuffered_slept (plan : Plan) (k : Nat) (regs : RampRegs) (s : State) :
    exec (.rampBuffered plan) (s.pause (.rampBuffered plan) k (.slept regs)) =
      startPass (.rampBuffered plan) k (.ramp regs regs.step) (adcChansOf plan.activeAdcMask) s := by
  rw [exec, execRampBuffered, running_pause]
  rfl

/-- Behind the last channel of a pass a buffered ramp ends the pass. -/
theorem exec_rampBuffered_passEnd {plan : Plan} {s : State} {k pass : Nat} {regs : RampRegs}
    (hs : s.seqpos = .busy (.rampBuffered plan) k (.passNext (.ramp regs pass) [])) :
    exec (.rampBuffered plan) s =
      endRampPass (.rampBuffered plan) plan k (.ramp regs pass) { s with adcState := .idle } := by
  rw [exec, execRampBuffered, running_busy hs]
  rfl

theorem exec_rampBuffered_rejected {plan : Plan} {s : State} (hs : s.seqpos = .idle) (h : plan.stepCount = 0) :
    exec (.rampBuffered plan) s = .next (s.complete .invalidStepCount .unit) := by
  rw [exec, execRampBuffered, running_idle hs]
  simp only [rampDeltas_none.mpr h]

/-- For `stepCount = 1` the baseline is the whole ramp. -/
theorem endRampPass_single {i : Instr} {plan : Plan} (h : plan.stepCount.toNat < 2) (k pass : Nat) (regs : RampRegs)
    (s : State) : endRampPass i plan k (.ramp regs pass) s = .next ((s.countPass pass).endRamp regs.rampErr
      (s.countPass pass).rampCancelled (s.countPass pass).rampPasses) :=
  if_pos h

/-- With two steps or more the end of a pass is the boundary before the next step. -/
theorem endRampPass_boundary {i : Instr} {plan : Plan} (h : 2 ≤ plan.stepCount.toNat) (k pass : Nat)
    (regs : RampRegs) (s : State) : endRampPass i plan k (.ramp regs pass) s =
      stepBoundary i plan (s.countPass pass).rampPasses k { regs with step := pass + 1 } (s.countPass pass) :=
  if_neg h.not_gt

theorem countPass_pause (pass : Nat) (s : State) (j : Instr) (m : Nat) (p : Point) :
    (s.pause j m p).countPass pass = (s.countPass pass).pause j m p := by
  unfold State.countPass
  rw [apply_ite (State.pause j m p), apply_ite (State.pause j m p)]
  rfl

/-- The end of a pass does not depend on where the operation rests. -/
theorem endRampPass_pause (i : Instr) (plan : Plan) (k pass : Nat) (regs : RampRegs) (s : State) (j : Instr) (m : Nat)
    (p : Point) : endRampPass i plan k (.ramp regs pass) (s.pause j m p) =
      endRampPass i plan k (.ramp regs pass) s := by
  simp only [endRampPass, countPass_pause]
  rfl

/-! ### The boundaries of both ramps (R235) -/

/-- Settles O45: both boundaries are `stepBoundary`, behind a sleep, behind the last priming pulse and behind a pass. -/
theorem rampCancelEndsAtBoundary : Obligations.RampCancelEndsAtBoundary := by
  unfold Obligations.RampCancelEndsAtBoundary
  refine ⟨fun s plan k regs hs => ⟨fun hstep hcancel => ?sleptCancelled, fun hlast => ?sleptLast⟩,
    fun s plan k regs todo hs hsteps hcancel htodo => ?primed,
    fun s plan k pass regs hs htwo => ⟨fun hpass hcancel => ⟨_, rfl, ?passCancelled⟩, fun hlast => ⟨_, rfl, ?passLast⟩⟩⟩
  case sleptCancelled =>
    exact (exec_rampSimple_slept hs).trans
      (stepBoundary_cancelled (regs := { regs with step := regs.step + 1 }) hstep hcancel)
  case sleptLast =>
    exact (exec_rampSimple_slept hs).trans
      (stepBoundary_last (regs := { regs with step := regs.step + 1 }) (Nat.lt_succ_of_le hlast))
  case primed =>
    have herr : (regs.failIf !todo.isEmpty).rampErr =
        if todo = [] ∨ regs.rampErr ≠ .none then regs.rampErr else .voltageOverrange := by
      cases todo with
      | nil => rfl
      | cons => by_cases h : regs.rampErr = .none <;> simp [RampRegs.failIf, Err.keepFirst, h]
    rw [exec_rampSimple_primeNext hs, primeFrom_of_all_overrange htodo, ← herr]
    exact stepBoundary_cancelled (regs := { regs.failIf !todo.isEmpty with step := 1 }) (stepCount_pos_iff.mpr hsteps) hcancel
  case passCancelled =>
    rw [exec_rampBuffered_passEnd hs, endRampPass_boundary htwo]
    exact stepBoundary_cancelled (regs := { regs with step := pass + 1 }) hpass
      ((cancelBit_eq_of_control (countPass_control ..)).trans hcancel)
  case passLast =>
    rw [exec_rampBuffered_passEnd hs, endRampPass_boundary htwo]
    exact stepBoundary_last (regs := { regs with step := pass + 1 }) (Nat.lt_succ_of_le hlast)

/-! ### The abort (R239) -/

theorem pause_of_seqpos {s : State} {i : Instr} {k : Nat} {p : Point} (h : s.seqpos = .busy i k p) :
    s.pause i k p = s := by
  rw [State.pause, ← h]

/-- The abort reports the passes counted so far. -/
theorem abortRamp_pause {s : State} {passes : BitVec 32} (h : s.rampPasses = passes) (regs : RampRegs) (pass : Nat)
    (j : Instr) (m : Nat) (p : Point) :
    abortRamp (.ramp regs pass) (s.pause j m p) = .next (s.endRamp .dataReadyTimeout false passes) := by
  rw [← h]
  rfl

/-- Settles O46: `RunsPass.execs_timeout` for the passes of a buffered ramp. -/
theorem rampTimeoutAborts : Obligations.RampTimeoutAborts := by
  unfold Obligations.RampTimeoutAborts
  intro s plan k pass limit regs c todo rest hs hpos hlimit hlevels
  have hrun := (rampBuffered_runsPass plan).execs_timeout (c := c) k (.ramp regs pass) todo hpos hlimit hlevels
  rw [pause_of_seqpos hs] at hrun
  refine hrun.trans (abortRamp_pause ?_ ..)
  exact iterate_pollDrdy_rampPasses limit { s with adcState := .awaitingDataReady }

/-! ### The whole ramp -/

section Run

variable {plan : Plan} {s₀ s u : State} {rest : List Level}

/-- A pass of a buffered ramp whose waits end low comes to its end. -/
theorem rampBuffered_runsTo_passEnd {waits : Waits} {regs : RampRegs} {k pass : Nat}
    (hwaits : WaitsEnd u.cfg (adcChansOf plan.activeAdcMask) waits) (hlevels : u.levelAnswers = levelsOf waits ++ rest)
    (h : RunsTo (.rampBuffered plan) s₀
      (startPass (.rampBuffered plan) k (.ramp regs pass) (adcChansOf plan.activeAdcMask) u)) :
    ∃ k', RunsTo (.rampBuffered plan) s₀
      (endRampPass (.rampBuffered plan) plan k' (.ramp regs pass) (bigPass pass waits u)) := by
  obtain ⟨hchans, hlimit⟩ := hwaits
  rw [startPass, ← hchans] at h
  obtain ⟨k', hcaptured⟩ := (rampBuffered_runsPass plan).runsTo_captured (s := u.sendMode) hlevels
    (fun w hw => timedOut_eq_false_iff.mpr fun limit h => hlimit limit h w hw) h
  exact ⟨k', hcaptured.next ((exec_rampBuffered_passEnd rfl).trans
    (endRampPass_pause _ _ _ _ _ (bigPass pass waits u) ..))⟩

/-- An accepted buffered ramp comes to the end of its baseline pass, its priming done. -/
theorem rampBuffered_runsTo_baseline {waits : Waits} (hs : s.seqpos = .idle) (hsteps : plan.stepCount ≠ 0)
    (hwaits : WaitsEnd s.cfg (adcChansOf plan.activeAdcMask) waits)
    (hlevels : s.levelAnswers = levelsOf waits ++ rest) :
    ∃ (k : Nat) (regs : RampRegs), regs.AfterSteps plan 0 ∧ RunsTo (.rampBuffered plan) s
      (endRampPass (.rampBuffered plan) plan k (.ramp regs 0)
        (bigPass 0 waits (s.afterPriming plan .steppingWithCapture))) := by
  obtain ⟨dv, hdv, -⟩ := exists_rampDeltas hsteps
  have hstart : exec (.rampBuffered plan) s = primeFrom (.rampBuffered plan) plan.vInitial (bufferedPrimed plan 0) 0
      ⟨dv, 0, .none⟩ (dacChansOf plan.activeDacMask) s.beginRamp := by
    rw [exec, execRampBuffered, running_idle hs]
    simp only [hdv]
  obtain ⟨k, hk⟩ := (rampBuffered_runsPrime plan).runsTo_primed hstart
  have hcfg : (s.afterPriming plan .steppingWithCapture).cfg = s.cfg := cfg_eq_of_control (t := s.beginRamp) (by simp)
  obtain ⟨k', hend⟩ := rampBuffered_runsTo_passEnd (u := s.afterPriming plan .steppingWithCapture)
    (by rwa [hcfg]) ((afterPriming_levelAnswers ..).trans hlevels) hk
  exact ⟨k', _, afterSteps_primed hdv, hend⟩

/-- With no cancel pending and every wait ending low, a buffered ramp comes from the boundary before step 1 to each
later one. -/
theorem rampBuffered_runsTo_boundary {waits : Nat → Waits} (htwo : 2 ≤ plan.stepCount.toNat)
    (h : RunsToBoundary (.rampBuffered plan) plan u.rampPasses s 0 u) (hcancel : u.cancelBit = false)
    (hwaits : ∀ k, k ≤ plan.stepCount.toNat → WaitsEnd u.cfg (adcChansOf plan.activeAdcMask) (waits k)) {n : Nat}
    (hn : n ≤ plan.stepCount.toNat) (hlevels : u.levelAnswers = levelsAfterBaseline waits n ++ rest) :
    RunsToBoundary (.rampBuffered plan) plan (bigCaptureSteps plan waits n u).rampPasses s n
      (bigCaptureSteps plan waits n u) := by
  induction n generalizing rest with
  | zero => exact h
  | succ n ih =>
    rw [levelsAfterBaseline_succ, List.append_assoc] at hlevels
    have hcontrol : (bigCaptureSteps plan waits n u).control = u.control := bigCaptureSteps_control ..
    obtain ⟨k, regs, hregs, hstep, hslept⟩ := (ih (Nat.le_of_succ_le hn) hlevels).slept (rampBuffered_runsStep plan) hn
      ((cancelBit_eq_of_control hcontrol).trans hcancel)
    have hcfg : (bigStep plan (n + 1) (bigCaptureSteps plan waits n u)).cfg = u.cfg :=
      cfg_eq_of_control ((bigStep_control ..).trans hcontrol)
    have hbehind : (bigStep plan (n + 1) (bigCaptureSteps plan waits n u)).levelAnswers =
        levelsOf (waits (n + 1)) ++ rest :=
      (bigStep_levelAnswers ..).trans (bigCaptureSteps_levelAnswers plan hlevels)
    obtain ⟨k', hend⟩ := rampBuffered_runsTo_passEnd (by rw [hcfg]; exact hwaits (n + 1) hn) hbehind
      (hslept.next (exec_rampBuffered_slept ..))
    rw [hstep, endRampPass_boundary htwo] at hend
    exact ⟨k', regs, hregs, hend⟩

end Run

/-- Settles O43: `rampBuffered_runsTo_baseline`, whose end is that of the ramp. -/
theorem rampBufferedOfOneStepIsItsBaseline : Obligations.RampBufferedOfOneStepIsItsBaseline := by
  unfold Obligations.RampBufferedOfOneStepIsItsBaseline
  intro s plan waits rest hs
  refine ⟨rfl, exec_rampBuffered_rejected hs, fun hone hwaits hlevels => ?baseline⟩
  case baseline =>
    obtain ⟨t, hfirst, -⟩ := exec_proceeds_of_idle (i := .rampBuffered plan) hs rfl
    obtain ⟨k, regs, hregs, n, hn⟩ := rampBuffered_runsTo_baseline hs (by rw [hone]; decide) hwaits hlevels
    have hcontrol : (bigPass 0 waits (s.afterPriming plan .steppingWithCapture)).control = s.beginRamp.control := by
      simp
    rw [endRampPass_single (by rw [hone]; decide), State.countPass_rampCancelled,
      rampCancelled_eq_of_control hcontrol] at hn
    exact ⟨⟨t, hfirst⟩, n, regs.rampErr, _, hregs.err, rfl, hn⟩

/-- Settles O42: priming and the baseline by `rampBuffered_runsTo_baseline`, the steps and their passes by
`rampBuffered_runsTo_boundary`. -/
theorem rampBufferedRefinesItsSteps : Obligations.RampBufferedRefinesItsSteps := by
  unfold Obligations.RampBufferedRefinesItsSteps
  intro s plan waits rest hs htwo
  obtain ⟨t, hfirst, -⟩ := exec_proceeds_of_idle (i := .rampBuffered plan) hs rfl
  refine ⟨⟨t, hfirst⟩, fun hcancel hwaits hlevels => ?_⟩
  rw [levelsOfPasses_eq, List.append_assoc] at hlevels
  have hsteps := stepCount_pos_iff.mp (Nat.zero_lt_of_lt htwo)
  obtain ⟨k, regs, hregs, hbaseline⟩ := rampBuffered_runsTo_baseline hs hsteps (hwaits 0 (Nat.zero_le _)) hlevels
  rw [endRampPass_boundary htwo] at hbaseline
  have hcontrol : ((bigPass 0 (waits 0) (s.afterPriming plan .steppingWithCapture)).countPass 0).control =
      s.beginRamp.control := by simp
  have hrest := (State.countPass_levelAnswers _ 0).trans
    (bigPass_levelAnswers 0 ((afterPriming_levelAnswers plan .steppingWithCapture s).trans hlevels))
  obtain ⟨err, herr, n, hn⟩ := (rampBuffered_runsTo_boundary htwo ⟨k, regs, hregs, hbaseline⟩
    ((cancelBit_eq_of_control hcontrol).trans hcancel)
    (by rw [cfg_eq_of_control hcontrol]; exact hwaits) le_rfl hrest).ends
  rw [rampCancelled_eq_of_control ((bigCaptureSteps_control ..).trans hcontrol)] at hn
  exact ⟨n, err, _, herr, rfl, hn⟩

end Sys2Proof.Machine
end

section
/-!
Scope. The event counts of a ramp (46_ramp_sequencer.md R241): what each big step of a ramp adds to the log, by the
kinds of events, and the sums for the whole ramps.
-/

namespace Sys2Proof.Machine

/-! ### Events by kind -/

/-- A weight for each kind of event that R241 counts. -/
structure KindWeights where
  dac : Nat := 0
  adc : Nat := 0
  low : Nat := 0
  high : Nat := 0
  sleep : Nat := 0
  emit : Nat := 0
  complete : Nat := 0

/-- The weight of an event, by its kind. -/
def Event.weight (w : KindWeights) : Event → Nat
  | .transfer (.sync _) _ _ _ => w.dac
  | .transfer .adcSelect _ _ _ => w.adc
  | .setLevel .latch .low => w.low
  | .setLevel .latch .high => w.high
  | .sleep _ => w.sleep
  | .emit _ => w.emit
  | .complete .. => w.complete
  | .setLevel .drdy _ | .readLevel .. | .setDirection .. => 0

/-- The weight of a sequence of events. -/
def logWeight (w : KindWeights) (log : List Event) : Nat := (log.map (Event.weight w)).sum

theorem logWeight_cons (w : KindWeights) (e : Event) (log : List Event) :
    logWeight w (e :: log) = e.weight w + logWeight w log :=
  List.sum_cons

theorem logWeight_append (w : KindWeights) (log log' : List Event) :
    logWeight w (log ++ log') = logWeight w log + logWeight w log' := by
  rw [logWeight, List.map_append, List.sum_append, logWeight, logWeight]

/-- The weights that count the events a predicate of R241 holds of: 1 for its kind, 0 for the others. -/
inductive Weighs : KindWeights → (Event → Bool) → Prop
  | dac : Weighs { dac := 1 } Event.isDacTransfer
  | adc : Weighs { adc := 1 } Event.isAdcTransfer
  | low : Weighs { low := 1 } (Event.isLatch .low)
  | high : Weighs { high := 1 } (Event.isLatch .high)
  | sleep : Weighs { sleep := 1 } Event.isSleep
  | emit : Weighs { emit := 1 } Event.isEmit
  | complete : Weighs { complete := 1 } Event.isComplete

theorem Weighs.weight_eq {w : KindWeights} {P : Event → Bool} (h : Weighs w P) (e : Event) :
    e.weight w = if P e then 1 else 0 := by
  cases e with
  | transfer line => cases line <;> cases h <;> rfl
  | setLevel pin lvl => cases pin <;> cases lvl <;> cases h <;> rfl
  | _ => cases h <;> rfl

theorem Weighs.countP_eq {w : KindWeights} {P : Event → Bool} (h : Weighs w P) (log : List Event) :
    log.countP P = logWeight w log := by
  induction log with
  | nil => rfl
  | cons e log ih => rw [List.countP_cons, ih, logWeight_cons, h.weight_eq, Nat.add_comm]

/-! ### What is added to the log -/

/-- From `s` to `t` events are added to the log, and `n` is their weight for each choice of weights. -/
def Adds (s t : State) (n : KindWeights → Nat) : Prop :=
  ∃ new, t.log = new ++ s.log ∧ ∀ w, logWeight w new = n w

theorem Adds.of_log_eq {s t : State} (h : t.log = s.log) : Adds s t 0 := ⟨[], h, fun _ => rfl⟩

theorem Adds.of_log_cons {s t : State} {e : Event} {n : KindWeights → Nat} (h : t.log = e :: s.log)
    (hn : ∀ w, e.weight w = n w) : Adds s t n :=
  ⟨[e], h, hn⟩

theorem Adds.congr {s t : State} {m n : KindWeights → Nat} (h : Adds s t m) (hmn : ∀ w, m w = n w) : Adds s t n :=
  funext hmn ▸ h

theorem Adds.trans {s t u : State} {m n : KindWeights → Nat} (h : Adds s t m) (h' : Adds t u n) :
    Adds s u (m + n) := by
  obtain ⟨new, hlog, hweight⟩ := h
  obtain ⟨new', hlog', hweight'⟩ := h'
  refine ⟨new' ++ new, by rw [hlog', hlog, List.append_assoc], fun w => ?_⟩
  rw [logWeight_append, hweight, hweight', Nat.add_comm, Pi.add_apply]

/-- Steps of a fold that each add the same add it as often as there are steps. -/
theorem Adds.foldl {β : Type} {f : State → β → State} {n : KindWeights → Nat} {l : List β}
    (h : ∀ s, ∀ b ∈ l, Adds s (f s b) n) (s : State) : Adds s (l.foldl f s) (l.length • n) := by
  induction l generalizing s with
  | nil => exact zero_nsmul n ▸ .of_log_eq rfl
  | cons b l ih =>
    rw [List.length_cons, succ_nsmul']
    exact (h s b List.mem_cons_self).trans (ih (fun s b hb => h s b (List.mem_cons_of_mem _ hb)) _)

/-- What a ramp adds that makes so many DAC transfers, pulses, sleeps, ADC transfers and capture records, and ends. -/
def rampWeight (writes pulses sleeps reads records : Nat) (w : KindWeights) : Nat :=
  writes * w.dac + pulses * (w.low + w.high) + sleeps * w.sleep + reads * w.adc + records * w.emit + w.complete

theorem Adds.counts {s t : State} {writes pulses sleeps reads records : Nat}
    (h : Adds s t (rampWeight writes pulses sleeps reads records)) : ∃ new, t.log = new ++ s.log ∧
      new.countP Event.isComplete = 1 ∧ new.countP Event.isDacTransfer = writes ∧
      new.countP (Event.isLatch .low) = pulses ∧ new.countP (Event.isLatch .high) = pulses ∧
      new.countP Event.isSleep = sleeps ∧ new.countP Event.isAdcTransfer = reads ∧
      new.countP Event.isEmit = records := by
  obtain ⟨new, hlog, hweight⟩ := h
  have hcount {w P} (hP : Weighs w P) : new.countP P = rampWeight writes pulses sleeps reads records w :=
    (hP.countP_eq new).trans (hweight w)
  refine ⟨new, hlog, ?_⟩
  rw [hcount .complete, hcount .dac, hcount .low, hcount .high, hcount .sleep, hcount .adc, hcount .emit]
  simp [rampWeight]

/-! ### The parts of a ramp -/

theorem bigPulse_adds (s : State) : Adds s (bigPulse s) (KindWeights.low + KindWeights.high) :=
  Adds.trans (t := s.setLatch .low) (.of_log_cons rfl fun _ => rfl) (.of_log_cons rfl fun _ => rfl)

theorem writeDac_adds (s : State) (c : DacChan) (code : DacCode) : Adds s (s.writeDac c code) KindWeights.dac :=
  .of_log_cons rfl fun _ => rfl

theorem endRamp_adds (s : State) (err : Err) (cancelled : Bool) (passes : BitVec 32) :
    Adds s (s.endRamp err cancelled passes) KindWeights.complete :=
  .of_log_cons rfl fun _ => rfl

theorem countPass_adds (s : State) (pass : Nat) : Adds s (s.countPass pass) 0 :=
  .of_log_eq (State.countPass_log ..)

theorem iterate_pollDrdy_adds (n : Nat) (s : State) : Adds s (State.pollDrdy^[n] s) 0 := by
  induction n generalizing s with
  | zero => exact .of_log_eq rfl
  | succ n ih => exact Adds.trans (t := s.pollDrdy) (m := 0) (.of_log_cons rfl fun _ => rfl) (ih _)

/-- What priming adds for one channel. -/
def primeWeight : KindWeights → Nat := KindWeights.dac + (KindWeights.low + KindWeights.high)

/-- What a step of a ramp with `a` active channels adds. -/
def stepWeight (a : Nat) : KindWeights → Nat :=
  a • KindWeights.dac + (KindWeights.low + KindWeights.high) + KindWeights.sleep

/-- What a pass over `m` channels adds. -/
def passWeight (m : Nat) : KindWeights → Nat := KindWeights.adc + m • (KindWeights.adc + KindWeights.emit)

section Parts

variable {plan : Plan}

theorem afterPriming_adds (stepping : RampState) (s : State)
    (h : ∀ c ∈ dacChansOf plan.activeDacMask, overrange plan.vInitial[c] = false) :
    Adds s (s.afterPriming plan stepping) ((dacChansOf plan.activeDacMask).length • primeWeight) := by
  refine Adds.foldl (fun s c hc => ?_) s.beginRamp
  rw [bigSetVoltage_pulse (h c hc)]
  exact (writeDac_adds ..).trans (bigPulse_adds _)

theorem bigStep_adds {k : Nat} (h : ∀ c ∈ dacChansOf plan.activeDacMask, overrange (planVoltage plan k c) = false)
    (s : State) : Adds s (bigStep plan k s) (stepWeight (dacChansOf plan.activeDacMask).length) := by
  have hwrites := Adds.foldl (f := fun s c => bigSetVoltage false s c (planVoltage plan k c)) (n := KindWeights.dac)
    (fun s c hc => bigSetVoltage_noPulse (h c hc) s c ▸ writeDac_adds s c _) s
  exact (hwrites.trans (bigPulse_adds _)).trans (.of_log_cons rfl fun _ => rfl)

theorem bigSteps_adds {n : Nat}
    (h : ∀ c ∈ dacChansOf plan.activeDacMask, ∀ k, 1 ≤ k → k ≤ n → overrange (planVoltage plan k c) = false)
    (s : State) : Adds s (bigSteps plan n s) (n • stepWeight (dacChansOf plan.activeDacMask).length) := by
  induction n with
  | zero => exact zero_nsmul (stepWeight _) ▸ .of_log_eq rfl
  | succ n ih =>
    rw [succ_nsmul]
    exact (ih fun c hc k hpos hk => h c hc k hpos (Nat.le_succ_of_le hk)).trans
      (bigStep_adds (fun c hc => h c hc _ (Nat.succ_pos n) le_rfl) _)

theorem bigCapture_adds (pass : Nat) (s : State) (wait : AdcChan × Nat) :
    Adds s (bigCapture pass s wait) (KindWeights.adc + KindWeights.emit) := by
  have hwait : Adds s (bigWait wait.2 s) 0 := iterate_pollDrdy_adds _ { s with adcState := .awaitingDataReady }
  have hread : Adds (bigWait wait.2 s) ((bigWait wait.2 s).readChannel wait.1) KindWeights.adc :=
    .of_log_cons rfl fun _ => rfl
  have hemit : Adds ((bigWait wait.2 s).readChannel wait.1) (bigCapture pass s wait) KindWeights.emit :=
    .of_log_cons rfl fun _ => rfl
  rw [← zero_add KindWeights.adc]
  exact (hwait.trans hread).trans hemit

theorem bigPass_adds (pass : Nat) {chans : List AdcChan} {waits : Waits} (h : waits.map Prod.fst = chans) (s : State) :
    Adds s (bigPass pass waits s) (passWeight chans.length) := by
  have hmode : Adds s s.sendMode KindWeights.adc := .of_log_cons rfl fun _ => rfl
  rw [← h, List.length_map]
  exact hmode.trans (Adds.foldl (fun s wait _ => bigCapture_adds pass s wait) s.sendMode)

theorem bigCaptureSteps_adds {waits : Nat → Waits} {chans : List AdcChan} {n : Nat}
    (h : ∀ c ∈ dacChansOf plan.activeDacMask, ∀ k, 1 ≤ k → k ≤ n → overrange (planVoltage plan k c) = false)
    (hwaits : ∀ k, k ≤ n → (waits k).map Prod.fst = chans) (s : State) :
    Adds s (bigCaptureSteps plan waits n s)
      (n • (stepWeight (dacChansOf plan.activeDacMask).length + passWeight chans.length)) := by
  induction n with
  | zero => exact zero_nsmul (stepWeight _ + passWeight _) ▸ .of_log_eq rfl
  | succ n ih =>
    have hearlier := ih (fun c hc k hpos hk => h c hc k hpos (Nat.le_succ_of_le hk))
      fun k hk => hwaits k (Nat.le_succ_of_le hk)
    have hstep := bigStep_adds (fun c hc => h c hc (n + 1) (Nat.succ_pos n) le_rfl) (bigCaptureSteps plan waits n s)
    have hpass := bigPass_adds (n + 1) (hwaits (n + 1) le_rfl) (bigStep plan (n + 1) (bigCaptureSteps plan waits n s))
    rw [succ_nsmul]
    exact hearlier.trans ((hstep.trans hpass).trans (countPass_adds ..))

end Parts

/-! ### The whole ramps -/

section Whole

variable {plan : Plan} (s : State) (err : Err)
  (hinitial : ∀ c ∈ dacChansOf plan.activeDacMask, overrange plan.vInitial[c] = false)

include hinitial

theorem simpleRamp_adds {n : Nat}
    (h : ∀ c ∈ dacChansOf plan.activeDacMask, ∀ k, 1 ≤ k → k ≤ n → overrange (planVoltage plan k c) = false) :
    Adds s ((bigSteps plan n (s.afterPriming plan .steppingWithoutCapture)).endRamp err false 0)
      (rampWeight ((dacChansOf plan.activeDacMask).length * (n + 1)) ((dacChansOf plan.activeDacMask).length + n) n
        0 0) := by
  have hpriming := afterPriming_adds .steppingWithoutCapture s hinitial
  have hsteps := bigSteps_adds h (s.afterPriming plan .steppingWithoutCapture)
  refine ((hpriming.trans hsteps).trans (endRamp_adds ..)).congr fun w => ?_
  simp only [Pi.add_apply, Pi.smul_apply, smul_eq_mul, primeWeight, stepWeight, rampWeight]
  ring

theorem baseline_adds {waits : Waits} {chans : List AdcChan} (hwaits : waits.map Prod.fst = chans) :
    Adds s ((bigPass 0 waits (s.afterPriming plan .steppingWithCapture)).countPass 0)
      ((dacChansOf plan.activeDacMask).length • primeWeight + passWeight chans.length) := by
  have hpass := bigPass_adds 0 hwaits (s.afterPriming plan .steppingWithCapture)
  exact ((afterPriming_adds .steppingWithCapture s hinitial).trans hpass).trans (countPass_adds ..)

theorem baselineRamp_adds (passes : BitVec 32) {waits : Waits} {chans : List AdcChan}
    (hwaits : waits.map Prod.fst = chans) :
    Adds s (((bigPass 0 waits (s.afterPriming plan .steppingWithCapture)).countPass 0).endRamp err false passes)
      (rampWeight (dacChansOf plan.activeDacMask).length (dacChansOf plan.activeDacMask).length 0
        (1 + chans.length) chans.length) := by
  refine ((baseline_adds s hinitial hwaits).trans (endRamp_adds ..)).congr fun w => ?_
  simp only [Pi.add_apply, Pi.smul_apply, smul_eq_mul, primeWeight, passWeight, rampWeight]
  ring

theorem bufferedRamp_adds (passes : BitVec 32) {waits : Nat → Waits} {chans : List AdcChan} {n : Nat}
    (h : ∀ c ∈ dacChansOf plan.activeDacMask, ∀ k, 1 ≤ k → k ≤ n → overrange (planVoltage plan k c) = false)
    (hwaits : ∀ k, k ≤ n → (waits k).map Prod.fst = chans) :
    Adds s ((bigCaptureSteps plan waits n
        ((bigPass 0 (waits 0) (s.afterPriming plan .steppingWithCapture)).countPass 0)).endRamp err false passes)
      (rampWeight ((dacChansOf plan.activeDacMask).length * (n + 1)) ((dacChansOf plan.activeDacMask).length + n) n
        ((n + 1) * (1 + chans.length)) ((n + 1) * chans.length)) := by
  have hbaseline := baseline_adds s hinitial (hwaits 0 (Nat.zero_le n))
  refine ((hbaseline.trans (bigCaptureSteps_adds h hwaits _)).trans (endRamp_adds ..)).congr fun w => ?_
  simp only [Pi.add_apply, Pi.smul_apply, smul_eq_mul, primeWeight, stepWeight, passWeight, rampWeight]
  ring

end Whole

/-- Settles O44: the events of the three refinements of O41 to O43 are weighed part by part. -/
theorem rampEventCounts : Obligations.RampEventCounts := by
  unfold Obligations.RampEventCounts
  rintro s plan waits rest a m steps hs hcancel hwaits rfl rfl rfl hpos hrange
  have hinitial (c) (hc : c ∈ dacChansOf plan.activeDacMask) : overrange plan.vInitial[c] = false :=
    Bool.eq_false_iff.mpr fun h => hrange ⟨c, hc, .inl h⟩
  have hvoltages (c) (hc : c ∈ dacChansOf plan.activeDacMask) (k) (h1 : 1 ≤ k) (hk : k ≤ plan.stepCount.toNat) :
      overrange (planVoltage plan k c) = false :=
    Bool.eq_false_iff.mpr fun h => hrange ⟨c, hc, .inr ⟨k, h1, hk, h⟩⟩
  have hchans (k) (hk : k ≤ plan.stepCount.toNat) : (waits k).map Prod.fst = adcChansOf plan.activeAdcMask :=
    (hwaits k hk).1
  have hsteps := stepCount_pos_iff.mp hpos
  refine ⟨?simple, fun htwo hlevels => ?buffered, fun hone hlevels => ?single⟩
  case simple =>
    obtain ⟨-, -, hrun⟩ := rampSimpleRefinesItsSteps s plan hs
    obtain ⟨-, n, err, u, -, rfl, hn⟩ := hrun hsteps
    rw [hcancel] at hn
    obtain ⟨new, hlog, hcounts⟩ := (simpleRamp_adds s err hinitial hvoltages).counts
    exact ⟨n, _, new, hn, rfl, hlog, hcounts⟩
  case buffered =>
    obtain ⟨-, hrun⟩ := rampBufferedRefinesItsSteps s plan waits rest hs htwo
    obtain ⟨n, err, u, -, rfl, hn⟩ := hrun hcancel hwaits hlevels
    obtain ⟨new, hlog, hcounts⟩ := (bufferedRamp_adds s err hinitial _ hvoltages hchans).counts
    exact ⟨n, _, new, hn, rfl, hlog, hcounts⟩
  case single =>
    obtain ⟨-, -, hrun⟩ := rampBufferedOfOneStepIsItsBaseline s plan (waits 0) rest hs
    obtain ⟨-, n, err, u, -, rfl, hn⟩ := hrun (BitVec.eq_of_toNat_eq hone) (hwaits 0 (Nat.zero_le _)) hlevels
    obtain ⟨new, hlog, hcounts⟩ := (baselineRamp_adds s err hinitial 1 (hchans 0 (Nat.zero_le _))).counts
    exact ⟨n, _, new, hn, rfl, hlog, hcounts⟩

end Sys2Proof.Machine
end

section
/-!
Scope. Status access (47_status.md R250): the DAC records the status record shows, the outcome of `READ_STATUS`.
-/

namespace Sys2Proof.Machine

/-- Each channel's entry of the status record is the observable part of its DAC record (R250). -/
@[simp] theorem status_dac_getElem (s : State) (c : DacChan) : s.status.dac[c] = s.dac[c].status :=
  Vector.getElem_map ..

/-- A `Complete` on an idle block writes `LAST_ERR` and the log; the position stays idle (10 R27). -/
theorem complete_of_idle {s : State} (hs : s.seqpos = .idle) (err : Err) (value : Value) :
    s.complete err value = { s with lastErr := err.code, log := .complete err value :: s.log } := by
  rw [State.complete, ← hs]
  rfl

/-- `READ_STATUS` is one `Complete`, which carries the status of the state before it (R250). -/
theorem exec_readStatus_idle {s : State} (hs : s.seqpos = .idle) :
    exec .readStatus s = .next { s with lastErr := 0, log := .complete .none (.status s.status) :: s.log } := by
  rw [exec, execReadStatus, completing_idle hs, complete_of_idle hs]
  rfl

/-- Settles O48: the record is `State.status`, whose DAC entries are read channel by channel. -/
theorem readStatusReportsState : Obligations.ReadStatusReportsState := by
  unfold Obligations.ReadStatusReportsState
  refine ⟨rfl, fun s hs => ⟨s.status, exec_readStatus_idle hs, rfl, rfl, rfl, rfl, rfl, rfl, fun c => ?dac,
    rfl, rfl, rfl, rfl⟩⟩
  case dac =>
    rw [status_dac_getElem]
    exact ⟨rfl, rfl, rfl⟩

end Sys2Proof.Machine
end

section
/-!
Scope. The reset sequence, step by step (70_reset_and_hazards.md R290 to R292).
-/

namespace Sys2Proof.Machine

/-! ### The three events of the sequence (70 R292) -/

/-- The first event makes `LATCH_PIN` an output; the chips do not see it. -/
theorem resetEvent_first (s : State) :
    s.resetEvent 0 = { s with seqpos := .resetting 1, log := .setDirection .latch .output :: s.log } := rfl

/-- The second event drives the latch high; it alone reaches the chips (R291, log 15). -/
theorem resetEvent_second (s : State) :
    s.resetEvent 1 =
      { s with
        seqpos := .resetting 2
        latchLevel := some .high
        log := .setLevel .latch .high :: s.log
        chips := s.chips.observe s.cfg (.setLevel .latch .high) } := rfl

/-- The third event makes `DRDY_PIN` an input and leaves the block idle. -/
theorem resetEvent_third (s : State) :
    s.resetEvent 2 = { s with seqpos := .idle, log := .setDirection .drdy .input :: s.log } := rfl

/-! ### The steps that make them -/

/-- Reset takes effect before its step, which makes the first event, wherever the block stands (70 R290). -/
theorem step_of_reset_signal {s : State} {rest : List HostSignal} (h : s.signals = .reset :: rest) :
    step s = .next (({ s with signals := rest } : State).assertReset.resetEvent 0) := by
  rw [step, State.takeSignal, h]
  exact stepNow_resetting rfl

/-- A quiet host leaves the sequence to make its next event. -/
theorem step_resetting {s : State} {n : Nat} (hq : s.Quiet) (hs : s.seqpos = .resetting n) :
    step s = .next (s.resetEvent n) := by
  rw [step_of_quiet hq, stepNow_resetting hs]

/-- Settles O3: the signal's own step makes the first event, and two steps of a quiet host the others. -/
theorem resetFromAnyStateMakesThreeEvents : Obligations.ResetFromAnyStateMakesThreeEvents := by
  unfold Obligations.ResetFromAnyStateMakesThreeEvents
  intro s hsignals
  refine ⟨_, _, step_of_reset_signal hsignals, step_resetting (n := 1) rfl rfl,
    Eq.trans (step_resetting (n := 2) rfl rfl) ?finalState⟩
  case finalState =>
    rw [resetEvent_first, resetEvent_second, resetEvent_third]
    rfl

end Sys2Proof.Machine
end
